-- ==== Sys2Proof/Word.lean ====
section
/-! DEFINITION. The bytes and multi-byte values that travel in frames and stand in the shared array (R1, R165). -/

namespace Sys2Proof

/-- One byte, of the shared array (R1) or of a frame (R152). -/
abbrev Byte := BitVec 8

/-- A two-byte value of a frame (R165). -/
abbrev Half := BitVec 16

/-- A four-byte value of a frame (R165). -/
abbrev Quad := BitVec 32

end Sys2Proof
end

