-- ==== Sys2Proof/Config.lean ====
section
/-! DEFINITION. The capacities of the part (Table 2 of 00_scope.md). The part leaves no value open to an
implementation, so there is no free value here. -/

namespace Sys2Proof.Config

/-- The number of bytes of the shared array (R1). -/
def arraySize : Nat := 32768

/-- The most records one notice queue holds (R94). -/
def queueCapacity : Nat := 24

/-- The most thresholds one service stack holds (R106). -/
def stackDepth : Nat := 4

/-- The most bytes one READ or WRITE accesses (R9). -/
def accessLimit : Nat := 16

/-- The most bytes one segment moves (R123). -/
def segmentLimit : Nat := 16

/-- The longest run (R117). -/
def runLimit : Nat := 4096

/-- The maximum of a hit count (R72). -/
def hitLimit : Nat := 65535

/-- The maximum of a repeat count (R97). -/
def repeatLimit : Nat := 255

/-- The maximum of a collapsed count (R122). -/
def collapsedLimit : Nat := 255

/-- The number of values of a next-seq counter (R95). -/
def seqModulus : Nat := 65536

/-- The priority of a NULL_REF notice (R33). -/
def nullRefPriority : Nat := 5

/-- The priority of a PRESENCE notice (R144). -/
def presencePriority : Nat := 6

end Sys2Proof.Config
end

