-- ==== Sys2Proof/Syntax.lean ====
section
/-! DEFINITION. The commands of the 4C32: one constructor of `Instr` for each row of spec/opcode_table.json.
Parameters are the bytes and values the frame carries (Table 9-2), so that a value out of range reaches the checks
of its request's rule (R165). -/

namespace Sys2Proof

/-- P0 to P3. -/
abbrev PortId := Fin 4

/-- K0 to K3. -/
abbrev ChannelId := Fin 4

/-- C0 to C3 of a port. -/
abbrev CursorId := Fin 4

/-- W0 to W15. -/
abbrev WatchId := Fin 16

/-- A0 to A31. -/
abbrev AnchorId := Fin 32

/-- What every request frame has beside its parameters: the port it came on, its length in bits as sampled between
frame start and frame end (R152), and its tag (R155). -/
structure Frame where
  port : PortId
  bits : Nat
  tag : Byte
  deriving DecidableEq, Repr

/-- The four target bytes of a memory request (Table 9-3): the mode byte and the three that follow it. -/
structure TargetBytes where
  mode : Byte
  b0 : Byte
  b1 : Byte
  b2 : Byte
  deriving DecidableEq, Repr

/-- The parameters of SET_ANCHOR (Table 9-2); base 65535 carries NULL. -/
structure AnchorBytes where
  anchor : Byte
  base : Half
  length : Half
  ring : Byte
  access : Byte
  deriving DecidableEq, Repr

/-- The parameters of SET_WATCH (Table 9-2), in the frame's order; `stop` is the spec's end. -/
structure WatchBytes where
  watch : Byte
  flags : Byte
  start : Half
  stop : Half
  kinds : Byte
  permit : Byte
  width : Byte
  condition : Byte
  reference : Quad
  quietLimit : Half
  priority : Byte
  trigger : Byte
  deriving DecidableEq, Repr

/-- The parameters of SET_CHANNEL (Table 9-2), in the frame's order. -/
structure ChannelBytes where
  channel : Byte
  source : Half
  destination : Half
  length : Half
  flags : Byte
  budget : Byte
  priority : Byte
  report : Byte
  deriving DecidableEq, Repr

/-- How much of a grant one MEMORY_GRANT command stands for (R7): all of it, from the arbiter's choice to the access
completion; its beginning, after which the grant holds the array; or the access completion of the grant that holds the
array. DESIGN CHOICE (log entry 4). -/
inductive GrantSpan where
  | whole
  | begins
  | ends
  deriving DecidableEq, Repr

/-- When the notice of a run end that a segment's completion makes is posted: at the completion, or after the
indications of the array's next grant, with which it may reach a queue together (R111). DESIGN CHOICE (log
entry 23). -/
inductive RunEndPost where
  | atOnce
  | afterNext
  deriving DecidableEq, Repr

/-- The same of a SEGMENT_GRANT command. A segment's completion may end a run, so a command that holds it says when the
notice of that run end is posted. -/
inductive SegmentSpan where
  | whole (post : RunEndPost)
  | begins
  | ends (post : RunEndPost)
  deriving DecidableEq, Repr

/-- The requests that raise no claim on the array: table, port and ownership requests (R5, R160), with their
parameters. A request of this type can wait for the access completion of a grant. -/
inductive Request where
  | attach
  | detach
  | doze
  | setLevels (threshold wake : Byte)
  | clearFlags (flags : Byte)
  | takeNotice (mode : Byte)
  | finishService
  | setAnchor (a : AnchorBytes)
  | bindCursor (cursor anchor : Byte) (offset : Half)
  | queryCursor (cursor : Byte)
  | setWatch (w : WatchBytes)
  | subscribe (watch : Byte)
  | unsubscribe (watch : Byte)
  | setChannel (c : ChannelBytes)
  | armChannel (channel : Byte)
  | startChannel (channel : Byte)
  | abortChannel (channel : Byte)
  | claim (table index : Byte)
  | adopt (table index : Byte)
  | release (table index : Byte)
  | queryEntry (table index : Byte)
  deriving DecidableEq, Repr

/-- The commands: the rows of spec/opcode_table.json, in its order. -/
inductive Instr where
  | powerOnReset
  | fillEnd
  | nresetAssertion
  | nresetRelease
  | frameStart (p : PortId)
  | emptyFrame (p : PortId)
  | nop (p : PortId) (bits : Nat)
  | unknownCode (f : Frame) (code : Byte)
  | attach (f : Frame)
  | detach (f : Frame)
  | doze (f : Frame)
  | setLevels (f : Frame) (threshold wake : Byte)
  | clearFlags (f : Frame) (flags : Byte)
  | takeNotice (f : Frame) (mode : Byte)
  | finishService (f : Frame)
  | read (f : Frame) (target : TargetBytes) (size : Byte)
  | write (f : Frame) (target : TargetBytes) (size : Byte) (data : List Byte)
  | exchange (f : Frame) (target : TargetBytes) (width : Byte) (expected new : Quad)
  | fetchAdd (f : Frame) (target : TargetBytes) (width : Byte) (addend : Quad)
  | memoryGrant (span : GrantSpan)
  | segmentGrant (span : SegmentSpan)
  | abortAfterSegment (p : PortId)
  | deferredRequestApply (p : PortId)
  | tick
  | lapse
  | setAnchor (f : Frame) (a : AnchorBytes)
  | bindCursor (f : Frame) (cursor anchor : Byte) (offset : Half)
  | queryCursor (f : Frame) (cursor : Byte)
  | setWatch (f : Frame) (w : WatchBytes)
  | subscribe (f : Frame) (watch : Byte)
  | unsubscribe (f : Frame) (watch : Byte)
  | setChannel (f : Frame) (c : ChannelBytes)
  | armChannel (f : Frame) (channel : Byte)
  | startChannel (f : Frame) (channel : Byte)
  | abortChannel (f : Frame) (channel : Byte)
  | claim (f : Frame) (table index : Byte)
  | adopt (f : Frame) (table index : Byte)
  | release (f : Frame) (table index : Byte)
  | queryEntry (f : Frame) (table index : Byte)
  | supplyLoss
  deriving DecidableEq, Repr

end Sys2Proof
end

