-- ==== Sys2Proof/Decode.lean ====
section
/-! DEFINITION. Byte order, the request code table and the frame lengths (R157, R165, Table 9-2), the frame decoder
and the frame encoder. spec/opcode_table.json gives its rows no bits, so `decodeTableWord` spells no command. -/

namespace Sys2Proof

/-- The two-byte value whose lowest byte is `lo` (R165). -/
def halfOf (lo hi : Byte) : Half := hi ++ lo

/-- The lowest byte of a two-byte value. -/
def halfLo (h : Half) : Byte := h.extractLsb' 0 8

/-- The highest byte of a two-byte value. -/
def halfHi (h : Half) : Byte := h.extractLsb' 8 8

/-- The four-byte value of two halves, the lower one first (R165). -/
def quadOf (lo hi : Half) : Quad := hi ++ lo

/-- The lower half of a four-byte value. -/
def quadLo (q : Quad) : Half := q.extractLsb' 0 16

/-- The upper half of a four-byte value. -/
def quadHi (q : Quad) : Half := q.extractLsb' 16 16

/-- The bytes of a two-byte value, lowest first (R165). -/
def halfBytes (h : Half) : List Byte := [halfLo h, halfHi h]

/-- The bytes of a four-byte value, lowest first (R165). -/
def quadBytes (q : Quad) : List Byte := halfBytes (quadLo q) ++ halfBytes (quadHi q)

/-- The unsigned value of bytes, the first least significant (R1, R15). -/
def leValue : List Byte → Nat
  | [] => 0
  | b :: bs => b.toNat + 256 * leValue bs

/-- The `n` low bytes of a value, the first least significant (R1, R15). -/
def leBytes : Nat → Nat → List Byte
  | 0, _ => []
  | n + 1, v => BitVec.ofNat 8 v :: leBytes n (v / 256)

/-- The request codes of Table 9-2, NOP's with them. -/
def knownCodes : List Byte :=
  [0x00, 0x01, 0x02, 0x03, 0x04, 0x05, 0x06, 0x07, 0x10, 0x11, 0x12, 0x13, 0x20, 0x21, 0x22, 0x30, 0x31, 0x32,
   0x40, 0x41, 0x42, 0x43, 0x50, 0x51, 0x52, 0x53]

/-- Whether a byte is a code of Table 9-2 (R156, check 6). -/
def isKnownCode (c : Byte) : Bool := knownCodes.contains c

/-- How many data bytes a WRITE frame with this size byte carries (R157). -/
def writeDataLength (size : Byte) : Nat :=
  if 1 ≤ size.toNat ∧ size.toNat ≤ Config.accessLimit then size.toNat else 0

/-- The code, and the bytes from byte 2 on, of a request frame (Table 9-2). Commands that are no frame, and the two
frames without a tag, have none here. -/
def requestBytes : Instr → Option (Frame × Byte × List Byte)
  | .attach f => some (f, 0x01, [])
  | .detach f => some (f, 0x02, [])
  | .doze f => some (f, 0x03, [])
  | .setLevels f threshold wake => some (f, 0x04, [threshold, wake])
  | .clearFlags f flags => some (f, 0x05, [flags])
  | .takeNotice f mode => some (f, 0x06, [mode])
  | .finishService f => some (f, 0x07, [])
  | .read f t size => some (f, 0x10, [t.mode, t.b0, t.b1, t.b2, size])
  | .write f t size data => some (f, 0x11, [t.mode, t.b0, t.b1, t.b2, size] ++ data)
  | .exchange f t width expected new =>
      some (f, 0x12, [t.mode, t.b0, t.b1, t.b2, width] ++ quadBytes expected ++ quadBytes new)
  | .fetchAdd f t width addend => some (f, 0x13, [t.mode, t.b0, t.b1, t.b2, width] ++ quadBytes addend)
  | .setAnchor f a =>
      some (f, 0x20, [a.anchor] ++ halfBytes a.base ++ halfBytes a.length ++ [a.ring, a.access])
  | .bindCursor f cursor anchor offset => some (f, 0x21, [cursor, anchor] ++ halfBytes offset)
  | .queryCursor f cursor => some (f, 0x22, [cursor])
  | .setWatch f w =>
      some (f, 0x30, [w.watch, w.flags] ++ halfBytes w.start ++ halfBytes w.stop ++
        [w.kinds, w.permit, w.width, w.condition] ++ quadBytes w.reference ++ halfBytes w.quietLimit ++
        [w.priority, w.trigger])
  | .subscribe f watch => some (f, 0x31, [watch])
  | .unsubscribe f watch => some (f, 0x32, [watch])
  | .setChannel f c =>
      some (f, 0x40, [c.channel] ++ halfBytes c.source ++ halfBytes c.destination ++ halfBytes c.length ++
        [c.flags, c.budget, c.priority, c.report])
  | .armChannel f channel => some (f, 0x41, [channel])
  | .startChannel f channel => some (f, 0x42, [channel])
  | .abortChannel f channel => some (f, 0x43, [channel])
  | .claim f table index => some (f, 0x50, [table, index])
  | .adopt f table index => some (f, 0x51, [table, index])
  | .release f table index => some (f, 0x52, [table, index])
  | .queryEntry f table index => some (f, 0x53, [table, index])
  | .powerOnReset => none
  | .fillEnd => none
  | .nresetAssertion => none
  | .nresetRelease => none
  | .frameStart _ => none
  | .emptyFrame _ => none
  | .nop _ _ => none
  | .unknownCode _ _ => none
  | .memoryGrant _ => none
  | .segmentGrant _ => none
  | .abortAfterSegment _ => none
  | .deferredRequestApply _ => none
  | .tick => none
  | .lapse => none
  | .supplyLoss => none

/-- The expected length in bytes of a frame with this code (Table 9-2). `size` is its seventh byte, which only WRITE
looks at (R157). The codes with special cases, NOP and the unknown ones, have no one length. -/
def expectedLength (code size : Byte) : Option Nat :=
  if code = 0x01 ∨ code = 0x02 ∨ code = 0x03 ∨ code = 0x07 then some 2
  else if code = 0x05 ∨ code = 0x06 ∨ code = 0x22 ∨ code = 0x31 ∨ code = 0x32 ∨ code = 0x41 ∨ code = 0x42 ∨
    code = 0x43 then some 3
  else if code = 0x04 ∨ code = 0x50 ∨ code = 0x51 ∨ code = 0x52 ∨ code = 0x53 then some 4
  else if code = 0x21 then some 6
  else if code = 0x10 then some 7
  else if code = 0x11 then some (7 + writeDataLength size)
  else if code = 0x20 then some 9
  else if code = 0x13 then some 11
  else if code = 0x40 then some 13
  else if code = 0x12 then some 15
  else if code = 0x30 then some 20
  else none

/-- Whether a frame of this many bits matches its code (R157). -/
def frameFits (code size : Byte) (bits : Nat) : Bool :=
  match expectedLength code size with
  | some n => bits == 8 * n
  | none => bits % 8 == 0 && (if code = 0x00 then 8 ≤ bits else 16 ≤ bits)

/-- The byte at a place of a frame; a byte the frame does not reach reads 0, and no frame cut short is taken. -/
def byteAt (bytes : List Byte) (i : Nat) : Byte := bytes.getD i 0

/-- The two-byte value at a place of a frame, lowest byte first (R165). -/
def halfAt (bytes : List Byte) (i : Nat) : Half := halfOf (byteAt bytes i) (byteAt bytes (i + 1))

/-- The four-byte value at a place of a frame, lowest byte first (R165). -/
def quadAt (bytes : List Byte) (i : Nat) : Quad := quadOf (halfAt bytes i) (halfAt bytes (i + 2))

/-- The target bytes of a memory request, from byte 2 of its frame (Table 9-2). -/
def targetAt (bytes : List Byte) : TargetBytes := ⟨byteAt bytes 2, byteAt bytes 3, byteAt bytes 4, byteAt bytes 5⟩

/-- The frame-end command of a frame on port `p` of `bits` bits, whose whole bytes are `bytes` (R156, Table 9-2).
A frame of 1 to 7 bits has no code; it is spelled as a NOP frame of that length, which is a length fault like every
frame that is no whole number of bytes (R156, check 3; log entry 16). -/
def decodeFrame (p : PortId) (bits : Nat) (bytes : List Byte) : Instr :=
  if bits = 0 then .emptyFrame p
  else if bits < 8 then .nop p bits
  else
    let f : Frame := ⟨p, bits, byteAt bytes 1⟩
    let code := byteAt bytes 0
    if code = 0x00 then .nop p bits
    else if code = 0x01 then .attach f
    else if code = 0x02 then .detach f
    else if code = 0x03 then .doze f
    else if code = 0x04 then .setLevels f (byteAt bytes 2) (byteAt bytes 3)
    else if code = 0x05 then .clearFlags f (byteAt bytes 2)
    else if code = 0x06 then .takeNotice f (byteAt bytes 2)
    else if code = 0x07 then .finishService f
    else if code = 0x10 then .read f (targetAt bytes) (byteAt bytes 6)
    else if code = 0x11 then .write f (targetAt bytes) (byteAt bytes 6) (bytes.drop 7)
    else if code = 0x12 then .exchange f (targetAt bytes) (byteAt bytes 6) (quadAt bytes 7) (quadAt bytes 11)
    else if code = 0x13 then .fetchAdd f (targetAt bytes) (byteAt bytes 6) (quadAt bytes 7)
    else if code = 0x20 then
      .setAnchor f ⟨byteAt bytes 2, halfAt bytes 3, halfAt bytes 5, byteAt bytes 7, byteAt bytes 8⟩
    else if code = 0x21 then .bindCursor f (byteAt bytes 2) (byteAt bytes 3) (halfAt bytes 4)
    else if code = 0x22 then .queryCursor f (byteAt bytes 2)
    else if code = 0x30 then
      .setWatch f ⟨byteAt bytes 2, byteAt bytes 3, halfAt bytes 4, halfAt bytes 6, byteAt bytes 8, byteAt bytes 9,
        byteAt bytes 10, byteAt bytes 11, quadAt bytes 12, halfAt bytes 16, byteAt bytes 18, byteAt bytes 19⟩
    else if code = 0x31 then .subscribe f (byteAt bytes 2)
    else if code = 0x32 then .unsubscribe f (byteAt bytes 2)
    else if code = 0x40 then
      .setChannel f ⟨byteAt bytes 2, halfAt bytes 3, halfAt bytes 5, halfAt bytes 7, byteAt bytes 9,
        byteAt bytes 10, byteAt bytes 11, byteAt bytes 12⟩
    else if code = 0x41 then .armChannel f (byteAt bytes 2)
    else if code = 0x42 then .startChannel f (byteAt bytes 2)
    else if code = 0x43 then .abortChannel f (byteAt bytes 2)
    else if code = 0x50 then .claim f (byteAt bytes 2) (byteAt bytes 3)
    else if code = 0x51 then .adopt f (byteAt bytes 2) (byteAt bytes 3)
    else if code = 0x52 then .release f (byteAt bytes 2) (byteAt bytes 3)
    else if code = 0x53 then .queryEntry f (byteAt bytes 2) (byteAt bytes 3)
    else .unknownCode f code

/-- The byte of eight bits, the most significant first (R152). -/
def byteOfBits (bits : List Bool) : Byte := BitVec.ofNat 8 (bits.foldl (fun n b => 2 * n + b.toNat) 0)

/-- The whole bytes of the bits sampled on SDI in a frame, first to last; bits short of a byte make none (R152, R156). -/
def bytesOfBits (bits : List Bool) : List Byte :=
  (List.range (bits.length / 8)).map (fun i => byteOfBits ((bits.drop (8 * i)).take 8))

/-- The bits of a byte as they travel, the most significant first (R152). -/
def bitsOfByte (b : Byte) : List Bool := (List.range 8).map (fun i => b.getLsbD (7 - i))

/-- The frame-end command of a frame on port `p` with these bits sampled on SDI between its start and its end (R152,
R157). -/
def decodeBits (p : PortId) (bits : List Bool) : Instr := decodeFrame p bits.length (bytesOfBits bits)

/-- The frame of a request command: its port and its bytes, code and tag first (Table 9-2). -/
def encodeFrame (i : Instr) : Option (PortId × List Byte) :=
  (requestBytes i).map (fun r => (r.1.port, r.2.1 :: r.1.tag :: r.2.2))

/-- spec/opcode_table.json gives no row any bits, so no word spells a command. -/
def decodeTableWord (_nbits _w : Nat) : Option Instr := none

end Sys2Proof
end

