-- ==== Sys2Proof/Machine/State.lean ====
section
/-! DEFINITION. The state of the 4C32: every piece of state the spec names, as plain data, with the queue of waiting
commands; the reasons a step can stop; the state after reset. -/

namespace Sys2Proof.Machine

/-- Why the part can stop. -/
inductive Fault where
  /-- Raised by MEMORY_GRANT and SEGMENT_GRANT when the access would reach an address above 32767, which does not
  exist (R1). SAFE: the spec's checks keep every access inside, so no run from reset meets it (log entry 18). -/
  | outsideArray
  deriving DecidableEq, Repr

/-- Why a command can be without a meaning. -/
inductive Refusal where
  /-- Raised by `exec` for a command whose meaning is not written yet. SAFE: nothing is claimed of such a command. -/
  | notModelled (mnemonic : String)
  deriving DecidableEq, Repr

/-- The fill state (R2). -/
inductive FillState where
  | notFilled
  | filled
  deriving DecidableEq, Repr

/-- A compare, EXCHANGE or FETCH_ADD width: 1, 2 or 4 bytes (Table 2). -/
inductive Width where
  | one
  | two
  | four
  deriving DecidableEq, Repr

/-- The owner state of an anchor, watch or channel (R42). -/
inductive Owner where
  | free
  | owned (p : PortId)
  | orphaned
  deriving DecidableEq, Repr

/-- Who performed an access (Table 3). -/
inductive Actor where
  | port (p : PortId)
  | channel (k : ChannelId)
  deriving DecidableEq, Repr

/-- The outcome codes (Table 9-4). `nothing` is the spec's NONE. -/
inductive ResultCode where
  | nothing
  | pending
  | done
  | badRequest
  | badParameter
  | notAttached
  | outOfRange
  | nullAnchor
  | unbound
  | notOwner
  | entryTaken
  | notOrphaned
  | watchHold
  | runHold
  | compareFailed
  | channelBusy
  | notArmed
  | empty
  | serviceFull
  | serviceEmpty
  | dozeDeclined
  deriving DecidableEq, Repr

/-- A result slot: tag, outcome and 0 to 20 bytes of data (R155). -/
structure Slot where
  tag : Byte
  code : ResultCode
  data : List Byte
  deriving DecidableEq, Repr

/-- Which ports may write through an anchor (R22, R34). -/
inductive Access where
  | shared
  | ownerWrites
  deriving DecidableEq, Repr

/-- The region of an anchor whose base is not NULL (R22). -/
structure Region where
  base : Nat
  length : Nat
  deriving DecidableEq, Repr

/-- An anchor entry (R22, Table 2-1). No region is base NULL with the length absent. -/
structure Anchor where
  owner : Owner
  region : Option Region
  ring : Bool
  access : Access
  deriving DecidableEq, Repr

/-- A bound cursor's anchor and offset (R27). -/
structure Binding where
  anchor : AnchorId
  offset : Nat
  deriving DecidableEq, Repr

/-- Cursor motions (R35). -/
inductive Motion where
  | at
  | postAdvance
  | preRetreat
  deriving DecidableEq, Repr

/-- The target of a memory request that passed the checks at taking (R9). -/
inductive Target where
  | absolute (address : Nat)
  | anchored (a : AnchorId) (offset : Nat)
  | cursor (c : CursorId) (m : Motion)
  deriving DecidableEq, Repr

/-- What a memory request does at its target (Table 1-1). -/
inductive MemoryOp where
  | read (size : Nat)
  | write (data : List Byte)
  | exchange (width : Width) (expected new : Nat)
  | fetchAdd (width : Width) (addend : Nat)
  deriving DecidableEq, Repr

/-- A memory request as it waits for its grant. -/
structure MemoryRequest where
  target : Target
  op : MemoryOp
  deriving DecidableEq, Repr

/-- A request in flight (R159, R160). -/
inductive InFlight where
  /-- A memory request whose claim is pending (R5). -/
  | waiting (r : MemoryRequest)
  /-- A memory request whose grant holds the array. -/
  | granted
  /-- A request taken while a grant held the array, to be applied at that grant's access completion (R160). -/
  | deferred (r : Request)
  /-- An ABORT_CHANNEL taken while a segment of its channel held the array (R132). -/
  | afterSegment (k : ChannelId)
  deriving DecidableEq, Repr

/-- The compare conditions (R59). -/
inductive Condition where
  | equal
  | notEqual
  | above
  | below
  deriving DecidableEq, Repr

/-- The compare modes (R75). -/
inductive CompareMode where
  | edge
  | level
  deriving DecidableEq, Repr

/-- The quiet states (R84). -/
inductive QuietState where
  | stopped
  | running
  | lapsed
  deriving DecidableEq, Repr

/-- The configuration fields of a watch (R56, Table 4-1): what SET_WATCH carries. `kinds` holds ALTER in bit 0, READ
in bit 1, COMPARE in bit 2 and QUIET in bit 3; `permit` holds Pn in bit n and Kk in bit 4 + k (Table 9-3). -/
structure WatchConfig where
  enabled : Bool
  start : Nat
  stop : Nat
  kinds : BitVec 4
  hold : Bool
  permit : BitVec 8
  width : Width
  condition : Condition
  reference : Nat
  mode : CompareMode
  quietLimit : Nat
  priority : Nat
  excludeWriter : Bool
  trigger : Option ChannelId
  deriving DecidableEq, Repr

/-- A watch entry (R56, Table 4-1). `subscribers` holds Pn in bit n. -/
structure Watch where
  owner : Owner
  config : WatchConfig
  subscribers : BitVec 4
  lastOutcome : Bool
  quiet : QuietState
  countdown : Nat
  hits : Nat
  deriving DecidableEq, Repr

/-- Runs left of a channel (R115). -/
inductive Runs where
  | count (n : Nat)
  | unlimited
  deriving DecidableEq, Repr

/-- Which normal run ends post a notice (R115, R128). -/
inductive Notify where
  | eachRun
  | lastRun
  deriving DecidableEq, Repr

/-- The channel states (R119). -/
inductive Phase where
  | idle
  | armed
  | running
  | runningLatched
  deriving DecidableEq, Repr

/-- The configuration fields of a channel (R115, Table 7-1): what SET_CHANNEL carries. Budget 0 is UNLIMITED;
`report` holds Pn in bit n. -/
structure ChannelConfig where
  source : Nat
  destination : Nat
  length : Nat
  sourceHold : Bool
  budget : Nat
  notify : Notify
  priority : Nat
  report : BitVec 4
  deriving DecidableEq, Repr

/-- A channel entry (R115, Table 7-1); `phase` is the spec's state. -/
structure Channel where
  owner : Owner
  config : ChannelConfig
  runsLeft : Runs
  phase : Phase
  copied : Nat
  collapsed : Nat
  deriving DecidableEq, Repr

/-- The source of a notice (R92). -/
inductive Source where
  | watch (w : WatchId)
  | channel (k : ChannelId)
  | anchor (a : AnchorId)
  | presence (p : PortId)
  deriving DecidableEq, Repr

/-- The three counts of a CHANNEL notice (R92, R129). -/
structure RunCounts where
  copied : Nat
  collapsed : Nat
  runsLeft : Runs
  deriving DecidableEq, Repr

/-- A notice as a source block hands it over (R92, R93). `kinds` is a set of kinds of the source's family in the
bits of Table 9-3. A field the source and kinds do not make present is absent. -/
structure Notice where
  source : Source
  kinds : Byte
  priority : Nat
  actor : Option Actor
  address : Option Nat
  size : Option Nat
  value : Option (Width × Nat)
  counts : Option RunCounts
  deriving DecidableEq, Repr

/-- A run-end notice that has been made and is still to be posted, with the ports it goes to (R111, R129; log
entry 23). -/
structure LateNotice where
  ports : BitVec 4
  notice : Notice
  deriving DecidableEq, Repr

/-- A record of a notice queue: a notice with the sequence number and repeat count the queue adds (R92). -/
structure Record where
  seq : Nat
  repeats : Nat
  notice : Notice
  deriving DecidableEq, Repr

/-- The port states (R138). -/
inductive PortMode where
  | detached
  | attached
  | dozing
  deriving DecidableEq, Repr

/-- A frame in progress on a port (R152): the header captured at its start (R153), READY at its start (R163), and
whether the frame is abandoned: by an nRESET assertion (R164), or since the part was without supply at its start or
during it (log entry 25). -/
structure OpenFrame where
  header : List Byte
  ready : Bool
  abandoned : Bool
  deriving DecidableEq, Repr

/-- A frame whose start found the part without supply, or that a loss of supply or a power-on met: it has no header and
takes no request (DESIGN CHOICE, log entry 25). -/
def OpenFrame.dark : OpenFrame := ⟨[], false, true⟩

/-- What SDO carried in the latest frame that ended: its header and its length in bits (R153). The model's own record
of an output pin (log entry 14). -/
structure ShiftedOut where
  header : List Byte
  bits : Nat
  deriving DecidableEq, Repr

/-- One port: its controller, its cursors and its part of the notice unit (Table 1). -/
structure Port where
  mode : PortMode
  threshold : Nat
  wake : Nat
  stack : List Nat
  queue : List Record
  nextSeq : Nat
  overrun : Bool
  busyRefused : Bool
  frameFault : Bool
  slot : Slot
  inFlight : Option InFlight
  attention : Bool
  cursors : Vector (Option Binding) 4
  frame : Option OpenFrame
  shifted : Option ShiftedOut
  deriving DecidableEq, Repr

/-- The shared array (R1): pairs of an address and a byte, addresses strictly rising, no byte 0. An address that is
not listed reads 0, as the fill leaves it (R2). -/
abbrev Memory := List Host.Cell

/-- A grant that holds the array, between its steps and its access completion (R7). -/
inductive Grant where
  /-- A port's memory request, with the outcome and data its completion will put into the result slot (R18). -/
  | access (p : PortId) (code : ResultCode) (data : List Byte)
  /-- A segment of a channel: its size when it was performed (R126), or refused by a hold (R130). -/
  | segment (k : ChannelId) (moved : Option Nat)
  deriving DecidableEq, Repr

/-- The arbiter's requesters in circular order (R5): 0 to 3 for P0 to P3, 4 for the copy engine. -/
abbrev Requester := Fin 5

/-- What came while a grant held the array and takes effect after its access completion: a port's request (R160), an
abort that waits for its segment among them (R132), or a tick (R83). -/
inductive Deferred where
  | request (p : PortId)
  | tick
  deriving DecidableEq, Repr

/-- The state of the part and its queue of waiting commands. `deferredOrder` holds what waits for the access completion,
requests and ticks, in the order in which it came (R55, R83, R90, R160). -/
structure State where
  supply : Bool
  nReset : Bool
  fill : FillState
  filling : Bool
  ticking : Bool
  deferredOrder : List Deferred
  lapsesDue : List WatchId
  tickTriggered : BitVec 4
  array : Memory
  pointer : Requester
  grant : Option Grant
  lateNotice : Option LateNotice
  anchors : Vector Anchor 32
  watches : Vector Watch 16
  channels : Vector Channel 4
  enginePointer : ChannelId
  ports : Vector Port 4
  pending : List Instr
  deriving DecidableEq, Repr

/-- A FREE anchor (R23). -/
def Anchor.default : Anchor := ⟨.free, none, false, .shared⟩

/-- The configuration of a watch after power-on and device reset (R57). -/
def WatchConfig.default : WatchConfig where
  enabled := false
  start := 0
  stop := 0
  kinds := 0
  hold := false
  permit := 0
  width := .one
  condition := .equal
  reference := 0
  mode := .edge
  quietLimit := 1
  priority := 4
  excludeWriter := false
  trigger := none

/-- A watch after power-on and device reset (R57). -/
def Watch.default : Watch where
  owner := .free
  config := WatchConfig.default
  subscribers := 0
  lastOutcome := false
  quiet := .stopped
  countdown := 0
  hits := 0

/-- The configuration part of the channel defaults (R116). -/
def ChannelConfig.default : ChannelConfig where
  source := 0
  destination := 0
  length := 0
  sourceHold := false
  budget := 1
  notify := .eachRun
  priority := 4
  report := 0

/-- The channel defaults (R116). -/
def Channel.default : Channel where
  owner := .free
  config := ChannelConfig.default
  runsLeft := .count 0
  phase := .idle
  copied := 0
  collapsed := 0

/-- The result slot NONE (R155). -/
def Slot.none : Slot := ⟨0, .nothing, []⟩

/-- A port after power-on (Tables 2-3, 6-3 and 8-1). -/
def Port.default : Port where
  mode := .detached
  threshold := 1
  wake := 1
  stack := []
  queue := []
  nextSeq := 0
  overrun := false
  busyRefused := false
  frameFault := false
  slot := Slot.none
  inFlight := Option.none
  attention := false
  cursors := Vector.replicate 4 Option.none
  frame := Option.none
  shifted := Option.none

/-- The part right after power-on reset, with the fill under way (R2, R8, R23, R57, R83, R114, R116, R124, R151),
nRESET released and no command waiting (log entry 17). -/
def State.reset : State where
  supply := true
  nReset := false
  fill := .notFilled
  filling := true
  ticking := false
  deferredOrder := []
  lapsesDue := []
  tickTriggered := 0
  array := []
  pointer := 0
  grant := none
  lateNotice := none
  anchors := Vector.replicate 32 Anchor.default
  watches := Vector.replicate 16 Watch.default
  channels := Vector.replicate 4 Channel.default
  enginePointer := 0
  ports := Vector.replicate 4 Port.default
  pending := []

end Sys2Proof.Machine
end

