-- ==== Sys2Proof/Machine/Ops.lean ====
section
/-! DEFINITION. The named operations over the tables, the shared array and the result slots, which every meaning is
written in. -/

namespace Sys2Proof.Machine

/-! ### Tables -/

/-- Every entry of a table changed by one function. -/
def tableMap {α : Type} {n : Nat} (f : α → α) (v : Vector α n) : Vector α n :=
  ⟨⟨v.toList.map f⟩, by simp⟩

/-- The ports, in ascending order. -/
def portIds : List PortId := [0, 1, 2, 3]

/-- The watches, in ascending order. -/
def watchIds : List WatchId := [0, 1, 2, 3, 4, 5, 6, 7, 8, 9, 10, 11, 12, 13, 14, 15]

/-- The channels, in ascending order. -/
def channelIds : List ChannelId := [0, 1, 2, 3]

/-- Port `p`. -/
def State.port (s : State) (p : PortId) : Port := s.ports[p]

/-- Port `p` replaced. -/
def State.setPort (s : State) (p : PortId) (q : Port) : State := { s with ports := s.ports.set p q }

/-- Port `p` changed by a function. -/
def State.modPort (s : State) (p : PortId) (f : Port → Port) : State := s.setPort p (f (s.port p))

/-- Every port changed by a function of its number. What happens at one port is ordered against nothing that happens
at another (R101). -/
def State.mapPorts (s : State) (f : PortId → Port → Port) : State :=
  { s with ports := #v[f 0 (s.port 0), f 1 (s.port 1), f 2 (s.port 2), f 3 (s.port 3)] }

/-- Anchor `a`. -/
def State.anchor (s : State) (a : AnchorId) : Anchor := s.anchors[a]

/-- Anchor `a` replaced. -/
def State.setAnchor (s : State) (a : AnchorId) (e : Anchor) : State := { s with anchors := s.anchors.set a e }

/-- Watch `w`. -/
def State.watch (s : State) (w : WatchId) : Watch := s.watches[w]

/-- Watch `w` replaced. -/
def State.setWatch (s : State) (w : WatchId) (e : Watch) : State := { s with watches := s.watches.set w e }

/-- Channel `k`. -/
def State.channel (s : State) (k : ChannelId) : Channel := s.channels[k]

/-- Channel `k` replaced. -/
def State.setChannel (s : State) (k : ChannelId) (e : Channel) : State := { s with channels := s.channels.set k e }

/-- Cursor `c` of a port. -/
def Port.cursor (q : Port) (c : CursorId) : Option Binding := q.cursors[c]

/-- Cursor `c` of a port replaced. -/
def Port.setCursor (q : Port) (c : CursorId) (b : Option Binding) : Port := { q with cursors := q.cursors.set c b }

/-- Every cursor of every port changed by a function. -/
def State.mapCursors (s : State) (f : Option Binding → Option Binding) : State :=
  s.mapPorts (fun _ q => { q with cursors := tableMap f q.cursors })

/-! ### The shared array -/

/-- The byte at an address; an address that is not listed reads 0, as the fill leaves it (R2). -/
def Memory.read : Memory → Nat → Byte
  | [], _ => 0
  | c :: m, a => if c.1 = a then c.2 else Memory.read m a

/-- The array with one byte stored, in its listed form: writing 0 removes the entry. -/
def Memory.write : Memory → Nat → Byte → Memory
  | [], a, v => if v = 0 then [] else [(a, v)]
  | c :: m, a, v =>
    if a < c.1 then (if v = 0 then c :: m else (a, v) :: c :: m)
    else if c.1 = a then (if v = 0 then m else (a, v) :: m)
    else c :: Memory.write m a v

/-- The listed form: addresses strictly rising and inside the array, no byte 0. -/
def Memory.wf : Memory → Bool
  | [] => true
  | c :: m => c.2 != 0 && c.1 < Config.arraySize && m.all (fun d => c.1 < d.1) && Memory.wf m

/-- The bytes at addresses, in the order of the list (R11). -/
def Memory.readAll (m : Memory) (addrs : List Nat) : List Byte := addrs.map m.read

/-- The array with bytes stored at addresses, in the order of the list (R12). -/
def Memory.writeAll (m : Memory) (addrs : List Nat) (bytes : List Byte) : Memory :=
  (addrs.zip bytes).foldl (fun m c => m.write c.1 c.2) m

/-- The addresses of a range that does not wrap, ascending. -/
def span (start size : Nat) : List Nat := List.range' start size

/-- All addresses exist (R1). -/
def inArray (addrs : List Nat) : Bool := addrs.all (fun a => a < Config.arraySize)

/-! ### Small codes and counts -/

/-- The number of bytes of a width. -/
def Width.bytes : Width → Nat
  | .one => 1
  | .two => 2
  | .four => 4

/-- The number of values of a width: 2 to the power 8 times its bytes. -/
def Width.modulus (w : Width) : Nat := 256 ^ w.bytes

/-- An actor's place in a permit set and its code in results (Table 9-3). -/
def Actor.code : Actor → Nat
  | .port p => p.val
  | .channel k => 4 + k.val

/-- The set that holds one port or channel. -/
def single {n : Nat} (i : Nat) : BitVec n := 1#n <<< i

/-- A count one higher, stopping at its maximum (Conventions, Counts). -/
def saturate (limit n : Nat) : Nat := if n < limit then n + 1 else n

/-! ### Ranges -/

/-- An address lies in the watch range [start, stop], which wraps when start exceeds stop (R58). -/
def inRange (start stop a : Nat) : Bool :=
  if start ≤ stop then start ≤ a && a ≤ stop else start ≤ a || a ≤ stop

/-- An access touches a watch range (R58). -/
def touches (start stop : Nat) (addrs : List Nat) : Bool := addrs.any (inRange start stop)

/-- An access touches a block of `size` bytes from `start` on. -/
def touchesBlock (start size : Nat) (addrs : List Nat) : Bool :=
  addrs.any (fun a => start ≤ a && a < start + size)

/-! ### Device-wide indications -/

/-- READY (R4): set when there is supply, the array is filled and nRESET is released. -/
def State.ready (s : State) : Bool := s.supply && s.fill == .filled && !s.nReset

/-! ### Result slots and requests in flight -/

/-- The result slot at the taking of a request: its tag with PENDING (R160). -/
def State.showPending (s : State) (p : PortId) (tag : Byte) : State :=
  s.modPort p (fun q => { q with slot := ⟨tag, .pending, []⟩ })

/-- The completion of a port's request: outcome and data replace PENDING, the tag stays, and the port has no request
in flight (R18, R161). -/
def State.complete (s : State) (p : PortId) (code : ResultCode) (data : List Byte) : State :=
  s.modPort p (fun q => { q with slot := ⟨q.slot.tag, code, data⟩, inFlight := none })

/-- What a request in flight becomes. -/
def State.setInFlight (s : State) (p : PortId) (r : InFlight) : State :=
  s.modPort p (fun q => { q with inFlight := some r })

/-- What applying a request gives: the state, the outcome and the result data. -/
structure Applied where
  state : State
  code : ResultCode
  data : List Byte

/-- A request that is refused, or that completes with an outcome and no data. -/
def Applied.answer (s : State) (code : ResultCode) : Applied := ⟨s, code, []⟩

/-- A request that completes DONE with no result data. -/
def Applied.done (s : State) : Applied := ⟨s, .done, []⟩

/-- A request that completes DONE with result data. -/
def Applied.report (s : State) (data : List Byte) : Applied := ⟨s, .done, data⟩

end Sys2Proof.Machine
end

