-- ==== Sys2Proof/Machine/Flags.lean ====
section
/-! DEFINITION. The flags, conditions and status bytes: the attention condition, the sticky flags, the frame header,
compare conditions and the set encodings of Table 9-3. -/

namespace Sys2Proof.Machine

/-! ### The attention condition and the nATTN output -/

/-- The attention condition: the port is ATTACHED and its queue holds a record at or above its threshold (R108). -/
def Port.attentionCondition (q : Port) : Bool :=
  q.mode == .attached && q.queue.any (fun r => q.threshold ≤ r.notice.priority)

/-- nATTN driven from the attention condition as it stands (R108). -/
def Port.drive (q : Port) : Port := { q with attention := q.attentionCondition }

/-- Whether the queue holds a record at or above the wake level (R145, R146). -/
def Port.wakeable (q : Port) : Bool := q.queue.any (fun r => q.wake ≤ r.notice.priority)

/-! ### The sets of kinds (Table 9-3) -/

/-- The kinds of watch notices and of watch configurations. -/
def kindAlter : Byte := 1
def kindRead : Byte := 2
def kindCompare : Byte := 4
def kindQuiet : Byte := 8
def kindBlocked : Byte := 16

/-- The kinds of channel notices. -/
def kindDone : Byte := 1
def kindExhausted : Byte := 2
def kindAborted : Byte := 4
def kindFault : Byte := 8

/-- The kind of an anchor notice. -/
def kindNullRef : Byte := 1

/-- The kinds of presence notices. -/
def kindAttached : Byte := 1
def kindReattached : Byte := 2
def kindDetached : Byte := 4

/-- ALTER is among the watch's kinds. -/
def WatchConfig.hasAlter (c : WatchConfig) : Bool := c.kinds.getLsbD 0

/-- READ is among the watch's kinds. -/
def WatchConfig.hasRead (c : WatchConfig) : Bool := c.kinds.getLsbD 1

/-- COMPARE is among the watch's kinds. -/
def WatchConfig.hasCompare (c : WatchConfig) : Bool := c.kinds.getLsbD 2

/-- QUIET is among the watch's kinds. -/
def WatchConfig.hasQuiet (c : WatchConfig) : Bool := c.kinds.getLsbD 3

/-- The permit set contains the writer (R66). -/
def WatchConfig.permits (c : WatchConfig) (writer : Actor) : Bool := c.permit.getLsbD writer.code

/-! ### Compare conditions -/

/-- The outcome of a compare condition on the assembled unsigned values (R59). -/
def Condition.holds : Condition → Nat → Nat → Bool
  | .equal, word, reference => word == reference
  | .notEqual, word, reference => word != reference
  | .above, word, reference => reference < word
  | .below, word, reference => word < reference

/-- Whether the mode's rule makes a COMPARE indication, from the last outcome before and the outcome after (R75). -/
def CompareMode.fires : CompareMode → Bool → Bool → Bool
  | .edge, before, after => after && !before
  | .level, _, after => after

/-! ### Codes of the tables of R165 -/

/-- Outcome codes (Table 9-4). -/
def ResultCode.byte : ResultCode → Byte
  | .nothing => 0x00
  | .pending => 0x01
  | .done => 0x02
  | .badRequest => 0x10
  | .badParameter => 0x11
  | .notAttached => 0x12
  | .outOfRange => 0x13
  | .nullAnchor => 0x14
  | .unbound => 0x15
  | .notOwner => 0x16
  | .entryTaken => 0x17
  | .notOrphaned => 0x18
  | .watchHold => 0x19
  | .runHold => 0x1A
  | .compareFailed => 0x1B
  | .channelBusy => 0x1C
  | .notArmed => 0x1D
  | .empty => 0x1E
  | .serviceFull => 0x1F
  | .serviceEmpty => 0x20
  | .dozeDeclined => 0x21

/-- Port states in STATUS and PRESENCE (Table 9-1). -/
def PortMode.code : PortMode → Nat
  | .detached => 0
  | .attached => 1
  | .dozing => 2

/-- One bit of a byte. -/
def bitAt (n : Nat) (b : Bool) : Nat := if b then 2 ^ n else 0

/-- The STATUS byte of a port's header (Table 9-1). -/
def statusByte (ready : Bool) (q : Port) : Byte :=
  BitVec.ofNat 8 (bitAt 7 ready + 32 * q.mode.code + bitAt 4 q.attention + bitAt 3 q.overrun + bitAt 2 q.busyRefused +
    bitAt 1 q.frameFault)

/-- The PRESENCE byte of every header (Table 9-1). -/
def presenceByte (s : State) : Byte :=
  BitVec.ofNat 8 ((s.port 0).mode.code + 4 * (s.port 1).mode.code + 16 * (s.port 2).mode.code +
    64 * (s.port 3).mode.code)

/-- The bytes of a result slot in the header: tag, outcome, data length, data (R153). -/
def Slot.bytes (r : Slot) : List Byte := r.tag :: r.code.byte :: BitVec.ofNat 8 r.data.length :: r.data

/-- The header of port `p` as it stands (R153, R154, Table 9-1). -/
def State.header (s : State) (p : PortId) : List Byte :=
  statusByte s.ready (s.port p) :: BitVec.ofNat 8 (s.port p).queue.length :: presenceByte s :: (s.port p).slot.bytes

/-- Output bit `i` of a frame with this header, counted from the first: the header bytes, most significant bit first, then
filler 0x00 (R152, R153). -/
def headerBit (header : List Byte) (i : Nat) : Bool := (byteAt header (i / 8)).getLsbD (7 - i % 8)

/-- Bit `i` that SDO carried in a frame that has ended. -/
def ShiftedOut.bit (o : ShiftedOut) (i : Nat) : Option Bool := if i < o.bits then some (headerBit o.header i) else none

/-- What port `p` drives on SDO when `clocked` bits of the frame in progress have been clocked: bit `clocked` of its header,
the first one from frame start on; none while nCS is high, when SDO is released to high impedance (R152), and without
supply. -/
def State.sdo (s : State) (p : PortId) (clocked : Nat) : Option Bool :=
  if s.supply then (s.port p).frame.map (fun f => headerBit f.header clocked) else none

/-- The owner byte of a result (Table 9-3). Its bits that the table gives no meaning read 0 (log entry 8). -/
def Owner.byte : Owner → Byte
  | .free => 0
  | .owned p => BitVec.ofNat 8 (64 + p.val)
  | .orphaned => 128

/-- The source byte of a record (Table 9-3); bit 5 reads 0 (log entry 8). -/
def Source.byte : Source → Byte
  | .watch w => BitVec.ofNat 8 w.val
  | .channel k => BitVec.ofNat 8 (64 + k.val)
  | .anchor a => BitVec.ofNat 8 (128 + a.val)
  | .presence p => BitVec.ofNat 8 (192 + p.val)

/-- Runs left as two bytes (Table 9-3). -/
def Runs.bytes : Runs → List Byte
  | .count n => leBytes 2 n
  | .unlimited => leBytes 2 65535

/-- The width code of a QUERY_ENTRY result (Table 9-5). -/
def Width.code : Width → Nat
  | .one => 0
  | .two => 1
  | .four => 2

/-- The condition code (Table 9-3). -/
def Condition.code : Condition → Nat
  | .equal => 0
  | .notEqual => 1
  | .above => 2
  | .below => 3

/-- The quiet state code (Table 9-5). -/
def QuietState.code : QuietState → Nat
  | .stopped => 0
  | .running => 1
  | .lapsed => 2

/-- The channel state code (Table 9-5). -/
def Phase.code : Phase → Nat
  | .idle => 0
  | .armed => 1
  | .running => 2
  | .runningLatched => 3

/-- The trigger code (Table 9-3). -/
def triggerCode : Option ChannelId → Nat
  | none => 0
  | some k => k.val + 1

/-- The contents byte of a TAKE_NOTICE result: which optional fields follow (R165). -/
def Notice.contents (n : Notice) : Byte :=
  BitVec.ofNat 8 (bitAt 0 n.actor.isSome + bitAt 1 n.address.isSome + bitAt 2 n.size.isSome +
    8 * (match n.value with | none => 0 | some v => v.1.code + 1) + bitAt 5 n.counts.isSome)

/-- The optional fields of a record, in the order of Table 9-5. -/
def Notice.fieldBytes (n : Notice) : List Byte :=
  (match n.actor with | none => [] | some a => leBytes 1 a.code) ++
  (match n.address with | none => [] | some a => leBytes 2 a) ++
  (match n.size with | none => [] | some z => leBytes 1 z) ++
  (match n.value with | none => [] | some v => leBytes v.1.bytes v.2) ++
  (match n.counts with | none => [] | some c => leBytes 2 c.copied ++ leBytes 1 c.collapsed ++ c.runsLeft.bytes)

/-- The result data of TAKE_NOTICE (R103, Table 9-5). -/
def Record.bytes (r : Record) : List Byte :=
  leBytes 2 r.seq ++ [r.notice.source.byte, r.notice.kinds] ++ leBytes 1 r.notice.priority ++ leBytes 1 r.repeats ++
    [r.notice.contents] ++ r.notice.fieldBytes

/-- The result data of QUERY_ENTRY on an anchor (R54, Table 9-5). -/
def Anchor.bytes (e : Anchor) : List Byte :=
  [e.owner.byte] ++ leBytes 2 (match e.region with | none => 65535 | some g => g.base) ++
    leBytes 2 (match e.region with | none => 0 | some g => g.length) ++
    leBytes 1 (bitAt 0 e.ring + bitAt 1 (e.access == .ownerWrites))

/-- The watch flags byte (Table 9-3), with the last outcome as results show it. -/
def Watch.flagsByte (e : Watch) : Byte :=
  BitVec.ofNat 8 (bitAt 0 e.config.enabled + bitAt 1 e.config.hold + bitAt 2 e.config.excludeWriter +
    bitAt 3 (e.config.mode == .level) + bitAt 4 e.lastOutcome)

/-- The result data of QUERY_ENTRY on a watch (R54, Table 9-5). -/
def Watch.bytes (e : Watch) : List Byte :=
  [e.owner.byte, e.flagsByte] ++ leBytes 2 e.config.start ++ leBytes 2 e.config.stop ++
    leBytes 1 (e.config.kinds.toNat + 16 * e.config.width.code + 64 * e.config.condition.code) ++
    [e.config.permit] ++ leBytes 4 e.config.reference ++ leBytes 2 e.config.quietLimit ++
    leBytes 1 (e.quiet.code + 16 * e.config.priority) ++ leBytes 2 e.countdown ++
    leBytes 1 (e.subscribers.toNat + 16 * triggerCode e.config.trigger) ++ leBytes 2 e.hits

/-- The result data of QUERY_ENTRY on a channel (R54, Table 9-5). -/
def Channel.bytes (e : Channel) : List Byte :=
  [e.owner.byte] ++ leBytes 2 e.config.source ++ leBytes 2 e.config.destination ++ leBytes 2 e.config.length ++
    leBytes 1 (bitAt 0 e.config.sourceHold + bitAt 1 (e.config.notify == .lastRun)) ++ leBytes 1 e.config.budget ++
    e.runsLeft.bytes ++ leBytes 1 e.config.priority ++ leBytes 1 e.config.report.toNat ++ leBytes 1 e.phase.code ++
    leBytes 2 e.copied ++ leBytes 1 e.collapsed

/-- The result data of QUERY_CURSOR (R29, Table 9-5). -/
def bindingBytes : Option Binding → List Byte
  | none => [0, 0] ++ leBytes 2 0
  | some b => [1] ++ leBytes 1 b.anchor.val ++ leBytes 2 b.offset

end Sys2Proof.Machine
end

