-- ==== Sys2Proof/Machine/Operands.lean ====
section
/-! DEFINITION. The operand forms: what the parameter bytes of a request name, and the resolution of the three target
modes to array addresses (R9, R10, R30 to R38). A parameter that names nothing gives none, which the request's rule
refuses with BAD_PARAMETER. -/

namespace Sys2Proof.Machine

/-- The entry a number byte names in a table of `n` entries. -/
def index? (n : Nat) (b : Byte) : Option (Fin n) := if h : b.toNat < n then some ⟨b.toNat, h⟩ else none

/-- The width a byte names: 1, 2 or 4. -/
def width? (b : Byte) : Option Width :=
  if b = 1 then some .one else if b = 2 then some .two else if b = 4 then some .four else none

/-- The size a READ or WRITE byte names: 1 to 16 (R9). -/
def size? (b : Byte) : Option Nat := if 1 ≤ b.toNat ∧ b.toNat ≤ Config.accessLimit then some b.toNat else none

/-- The motion a byte names (Table 9-3). -/
def motion? (b : Byte) : Option Motion :=
  if b = 0 then some .at else if b = 1 then some .postAdvance else if b = 2 then some .preRetreat else none

/-- The target that the target bytes name (Table 9-3, R9). -/
def target? (t : TargetBytes) : Option Target :=
  if t.mode = 0 then some (.absolute (halfOf t.b0 t.b1).toNat)
  else if t.mode = 1 then (index? 32 t.b0).map (fun a => .anchored a (halfOf t.b1 t.b2).toNat)
  else if t.mode = 2 then (index? 4 t.b0).bind (fun c => (motion? t.b1).map (.cursor c))
  else none

/-- The condition a byte names (Table 9-3). -/
def condition? (b : Byte) : Option Condition :=
  if b = 0 then some .equal else if b = 1 then some .notEqual else if b = 2 then some .above
  else if b = 3 then some .below else none

/-- The trigger a byte names: none, or K0 to K3 (Table 9-3). -/
def trigger? (b : Byte) : Option (Option ChannelId) :=
  if b = 0 then some none else (index? 4 (b - 1)).map some

/-- The access setting a byte names (Table 9-2). -/
def access? (b : Byte) : Option Access := if b = 0 then some .shared else if b = 1 then some .ownerWrites else none

/-- An entry of one of the three tables with owners (R42). -/
inductive Entry where
  | anchor (a : AnchorId)
  | watch (w : WatchId)
  | channel (k : ChannelId)
  deriving DecidableEq, Repr

/-- The entry an ownership request names by table and index (R43). -/
def entry? (table index : Byte) : Option Entry :=
  if table = 0 then (index? 32 index).map .anchor
  else if table = 1 then (index? 16 index).map .watch
  else if table = 2 then (index? 4 index).map .channel
  else none

/-! ### Memory requests at taking -/

/-- The number of bytes a memory request accesses (Table 1-1). -/
def MemoryOp.size : MemoryOp → Nat
  | .read size => size
  | .write data => data.length
  | .exchange width _ _ => width.bytes
  | .fetchAdd width _ => width.bytes

/-- A writing access: WRITE, EXCHANGE or FETCH_ADD (R16, R30). -/
def MemoryOp.writes : MemoryOp → Bool
  | .read _ => false
  | .write _ => true
  | .exchange _ _ _ => true
  | .fetchAdd _ _ => true

/-- The operation of a READ. -/
def readOp? (size : Byte) : Option MemoryOp := (size? size).map .read

/-- The operation of a WRITE, whose data bytes its frame carries. -/
def writeOp? (size : Byte) (data : List Byte) : Option MemoryOp := (size? size).map (fun _ => .write data)

/-- The operation of an EXCHANGE; the bytes above the width are ignored (Table 9-3). -/
def exchangeOp? (width : Byte) (expected new : Quad) : Option MemoryOp :=
  (width? width).map (fun w => .exchange w (expected.toNat % w.modulus) (new.toNat % w.modulus))

/-- The operation of a FETCH_ADD; the bytes above the width are ignored (Table 9-3). -/
def fetchAddOp? (width : Byte) (addend : Quad) : Option MemoryOp :=
  (width? width).map (fun w => .fetchAdd w (addend.toNat % w.modulus))

/-- An ABSOLUTE target fits the array (R10); the other modes are decided at the grant. -/
def Target.fitsAtTaking : Target → Nat → Bool
  | .absolute a, size => a + size ≤ Config.arraySize
  | .anchored _ _, _ => true
  | .cursor _ _, _ => true

/-- The checks at taking (R9): BAD_PARAMETER, then OUT_OF_RANGE, else the request that waits for its grant. R9 gives no
order between the two; where both hold, as for a READ of size 0 at ABSOLUTE 40000, that BAD_PARAMETER wins is the model's
choice (DESIGN CHOICE, log entry 26). -/
def checkAtTaking (t : TargetBytes) (op : Option MemoryOp) : Except ResultCode MemoryRequest :=
  match target? t, op with
  | some t, some op => if t.fitsAtTaking op.size then .ok ⟨t, op⟩ else .error .outOfRange
  | _, _ => .error .badParameter

/-! ### Resolution at the grant -/

/-- What a resolved access reaches: its array addresses in order of access, and the offset its motion stores. -/
structure Place where
  addrs : List Nat
  motion : Option (CursorId × Nat)
  deriving DecidableEq, Repr

/-- The array addresses of `size` bytes from an offset on through an anchor: ascending, or modulo the length through a
ring (R31, R32). -/
def Region.addrs (g : Region) (ring : Bool) (offset size : Nat) : List Nat :=
  (List.range size).map (fun i => if ring then g.base + (offset + i) % g.length else g.base + (offset + i))

/-- An access of `size` bytes at an offset fits the anchor's bounds (R31, R32). -/
def Region.fits (g : Region) (ring : Bool) (offset size : Nat) : Bool :=
  if ring then offset < g.length && size ≤ g.length else offset + size ≤ g.length

/-- The first offset a CURSOR access reaches, or none when it fails the bounds (R36, R37). -/
def Motion.first (m : Motion) (g : Region) (ring : Bool) (o size : Nat) : Option Nat :=
  match m with
  | .at => if (if ring then size ≤ g.length else o + size ≤ g.length) then some o else none
  | .postAdvance => if (if ring then size ≤ g.length else o + size ≤ g.length) then some o else none
  | .preRetreat =>
    if ring then (if size ≤ g.length then some ((o + g.length - size) % g.length) else none)
    else (if size ≤ o then some (o - size) else none)

/-- The offset a performed CURSOR access stores, from the cursor's offset and its first offset (R35 to R37). -/
def Motion.stored (m : Motion) (g : Region) (ring : Bool) (o first size : Nat) : Nat :=
  match m with
  | .at => o
  | .postAdvance => if ring then (o + size) % g.length else o + size
  | .preRetreat => first

/-- A writing access through an anchor is admitted by its access setting (R34). -/
def Anchor.admits (e : Anchor) (p : PortId) (writes : Bool) : Bool :=
  !writes || e.access == .shared || e.owner == .owned p

/-- The resolution of a memory request of port `p` at its grant (R10, R30 to R37): its place, or its refusal. -/
def State.resolve (s : State) (p : PortId) (r : MemoryRequest) : Except ResultCode Place :=
  match r.target with
  | .absolute a => .ok ⟨span a r.op.size, none⟩
  | .anchored a offset =>
    let e := s.anchor a
    match e.region with
    | none => .error .nullAnchor
    | some g =>
      if !e.admits p r.op.writes then .error .notOwner
      else if !g.fits e.ring offset r.op.size then .error .outOfRange
      else .ok ⟨g.addrs e.ring offset r.op.size, none⟩
  | .cursor c m =>
    match (s.port p).cursor c with
    | none => .error .unbound
    | some b =>
      let e := s.anchor b.anchor
      match e.region with
      | none => .error .unbound
      | some g =>
        if !e.admits p r.op.writes then .error .notOwner
        else
          match m.first g e.ring b.offset r.op.size with
          | none => .error .outOfRange
          | some first =>
            .ok ⟨g.addrs e.ring first r.op.size, some (c, m.stored g e.ring b.offset first r.op.size)⟩

end Sys2Proof.Machine
end

