-- ==== Sys2Proof/Machine/Notices.lean ====
section
/-! DEFINITION. The notice unit: posting, the queues, TAKE_NOTICE and FINISH_SERVICE (chapter 6). -/

namespace Sys2Proof.Machine

/-! ### Posting (R96 to R100) -/

/-- Notices of watches and anchors coalesce; those of channels and presence do not (R96). -/
def Source.coalesces : Source → Bool
  | .watch _ => true
  | .anchor _ => true
  | .channel _ => false
  | .presence _ => false

/-- A record has the notice's source and kind set (R96). -/
def Record.alike (r : Record) (n : Notice) : Bool := r.notice.source == n.source && r.notice.kinds == n.kinds

/-- A record that has absorbed a notice (R97). -/
def Record.absorb (r : Record) (n : Notice) : Record := ⟨r.seq, saturate Config.repeatLimit r.repeats, n⟩

/-- The queue whose oldest record alike has absorbed the notice (R97). -/
def absorbInto (n : Notice) : List Record → List Record
  | [] => []
  | r :: rs => if r.alike n then r.absorb n :: rs else r :: absorbInto n rs

/-- The seq that the next appended record takes: the counter, or one more when the newest record has it (R95). -/
def Port.seqForAppend (q : Port) : Nat :=
  match q.queue.getLast? with
  | some r => if r.seq = q.nextSeq then (q.nextSeq + 1) % Config.seqModulus else q.nextSeq
  | none => q.nextSeq

/-- A new record is appended as the newest (R98), and the counter advances (R95). -/
def Port.append (q : Port) (n : Notice) : Port :=
  { q with queue := q.queue ++ [⟨q.seqForAppend, 1, n⟩], nextSeq := (q.seqForAppend + 1) % Config.seqModulus }

/-- An arrival of this priority: it wakes a DOZING port at or above its wake level (R146), and nATTN follows the
attention condition (R108). -/
def Port.arrive (q : Port) (priority : Nat) : Port :=
  (if q.mode = .dozing ∧ q.wake ≤ priority then { q with mode := .attached } else q).drive

/-- The notice unit's decision for one notice and one port: discard, coalesce, append or drop (R96). -/
def Port.post (q : Port) (n : Notice) : Port :=
  if q.mode = .detached then q
  else if n.source.coalesces && q.queue.any (fun r => r.alike n) then
    Port.arrive { q with queue := absorbInto n q.queue } n.priority
  else if q.queue.length < Config.queueCapacity then (q.append n).arrive n.priority
  else { q with overrun := true }

/-- A notice posted to each port of a set (R73, R129). -/
def State.postTo (s : State) (set : BitVec 4) (n : Notice) : State :=
  s.mapPorts (fun p q => if set.getLsbD p.val then q.post n else q)

/-- The run-end notice that is still to be posted is posted (R111). -/
def State.postLate (s : State) : State :=
  match s.lateNotice with
  | none => s
  | some l => ({ s with lateNotice := none } : State).postTo l.ports l.notice

/-- A run-end notice as it is made: posted at once, or kept until after the next grant's indications, with any notice
kept before it posted first (R111). -/
def State.postRunEnd (s : State) (post : RunEndPost) (set : BitVec 4) (n : Notice) : State :=
  match post with
  | .atOnce => s.postTo set n
  | .afterNext => { s.postLate with lateNotice := some ⟨set, n⟩ }

/-! ### The notices of the four families (R93) -/

/-- A WATCH notice of an access: actor, first address and size, and the compare word when COMPARE is a kind (R73). -/
def accessNotice (w : WatchId) (kinds : Byte) (priority : Nat) (actor : Actor) (address size : Nat)
    (value : Option (Width × Nat)) : Notice :=
  ⟨.watch w, kinds, priority, some actor, some address, some size, value, none⟩

/-- A QUIET notice of a lapse (R87). -/
def quietNotice (w : WatchId) (priority : Nat) : Notice := ⟨.watch w, kindQuiet, priority, none, none, none, none, none⟩

/-- A NULL_REF notice (R33). -/
def nullRefNotice (a : AnchorId) (actor : Actor) (size : Nat) : Notice :=
  ⟨.anchor a, kindNullRef, Config.nullRefPriority, some actor, none, some size, none, none⟩

/-- A PRESENCE notice (R144). -/
def presenceNotice (p : PortId) (kind : Byte) : Notice :=
  ⟨.presence p, kind, Config.presencePriority, none, none, none, none, none⟩

/-- A CHANNEL notice (R129). -/
def channelNotice (k : ChannelId) (kinds : Byte) (priority : Nat) (counts : RunCounts) : Notice :=
  ⟨.channel k, kinds, priority, none, none, none, none, some counts⟩

/-! ### TAKE_NOTICE and FINISH_SERVICE (R102 to R106) -/

/-- The highest priority present in a queue. -/
def topPriority (queue : List Record) : Nat := queue.foldl (fun m r => max m r.notice.priority) 0

/-- The record TAKE_NOTICE selects: the oldest of the highest priority present (R102). -/
def selected (queue : List Record) : Option Record :=
  queue.find? (fun r => r.notice.priority == topPriority queue)

/-- The queue without the record TAKE_NOTICE selects; the others keep their order (R103). -/
def withoutSelected (queue : List Record) : List Record :=
  queue.eraseP (fun r => r.notice.priority == topPriority queue)

/-- ENTER_SERVICE pushes the threshold and sets it to the taken record's priority plus 1, at most 8 (R104). -/
def Port.enterService (q : Port) (priority : Nat) : Port :=
  { q with stack := q.threshold :: q.stack, threshold := min (priority + 1) 8 }

/-- TAKE_NOTICE (R102 to R104). The option byte is 0 NONE or 1 ENTER_SERVICE. -/
def applyTakeNotice (p : PortId) (mode : Byte) (s : State) : Applied :=
  let q := s.port p
  if mode ≠ 0 ∧ mode ≠ 1 then .answer s .badParameter
  else
    match selected q.queue with
    | none => .answer s .empty
    | some r =>
      if mode = 1 ∧ Config.stackDepth ≤ q.stack.length then .answer s .serviceFull
      else
        let q1 := { q with queue := withoutSelected q.queue }
        let q2 := if mode = 1 then q1.enterService r.notice.priority else q1
        .report (s.setPort p q2.drive) r.bytes

/-- FINISH_SERVICE (R105). -/
def applyFinishService (p : PortId) (s : State) : Applied :=
  let q := s.port p
  match q.stack with
  | [] => .answer s .serviceEmpty
  | t :: rest => .done (s.setPort p (Port.drive { q with stack := rest, threshold := t }))

end Sys2Proof.Machine
end

