-- ==== Sys2Proof/Machine/Channels.lean ====
section
/-! DEFINITION. The copy engine: triggers, runs and segments, run holds, run ends and the channel requests
(chapter 7). -/

namespace Sys2Proof.Machine

/-! ### Triggers (R120) -/

/-- The effect of a trigger by the channel's state (R120). -/
def Channel.trigger (e : Channel) : Channel :=
  match e.phase with
  | .idle => e
  | .armed => { e with phase := .running, copied := 0 }
  | .running => { e with phase := .runningLatched }
  | .runningLatched => { e with collapsed := saturate Config.collapsedLimit e.collapsed }

/-- A trigger reaches channel `k`. -/
def State.triggerChannel (s : State) (k : ChannelId) : State := s.setChannel k (s.channel k).trigger

/-- A trigger reaches the channel a watch names, unless the channel was triggered already in the same presentation or
tick (R77, R86); `sent` is the set of channels triggered so far. -/
def State.triggerOnce (s : State) (sent : BitVec 4) (target : Option ChannelId) : State × BitVec 4 :=
  match target with
  | none => (s, sent)
  | some k => if sent.getLsbD k.val then (s, sent) else (s.triggerChannel k, sent ||| single k.val)

/-! ### Runs (R119, R123, R124, R127) -/

/-- A run is in progress (R119). -/
def Channel.inRun (e : Channel) : Bool := e.phase == .running || e.phase == .runningLatched

/-- The channel has bytes to move (R124). -/
def Channel.hasBytes (e : Channel) : Bool := e.inRun && e.copied < e.config.length

/-- The copy engine's claim on the array (R5, R124). -/
def State.engineClaim (s : State) : Bool := channelIds.any (fun k => (s.channel k).hasBytes)

/-- The engine's choice of channel: the first with bytes to move, from the engine pointer on (R124). -/
def State.engineChoice (s : State) : Option ChannelId :=
  [s.enginePointer, s.enginePointer + 1, s.enginePointer + 2, s.enginePointer + 3].find?
    (fun k => (s.channel k).hasBytes)

/-- The size of the segment the channel moves next (R123). -/
def Channel.segmentSize (e : Channel) : Nat := min Config.segmentLimit (e.config.length - e.copied)

/-- The source bytes of the segment the channel moves next (R123). -/
def Channel.segmentSource (e : Channel) : List Nat := span (e.config.source + e.copied) e.segmentSize

/-- The destination bytes of the segment the channel moves next (R123). -/
def Channel.segmentDestination (e : Channel) : List Nat := span (e.config.destination + e.copied) e.segmentSize

/-- The channel's run hold is in force over an access (R127). -/
def Channel.runHolds (e : Channel) (addrs : List Nat) : Bool :=
  e.config.sourceHold && e.inRun && touchesBlock e.config.source e.config.length addrs

/-- A writing access touches the held source of a running channel (R127). A channel's own hold does not refuse its
destination (R125). -/
def State.runHeld (s : State) (writer : Actor) (addrs : List Nat) : Bool :=
  channelIds.any (fun k => writer != .channel k && (s.channel k).runHolds addrs)

/-! ### Run ends and channel notices (R122, R128 to R131) -/

/-- Runs left after a run that counts: one fewer, unless UNLIMITED (R128, R130). -/
def Runs.spend : Runs → Runs
  | .count n => .count (n - 1)
  | .unlimited => .unlimited

/-- No runs are left. -/
def Runs.exhausted (r : Runs) : Bool := r == .count 0

/-- A latched trigger that gets no run of its own is counted in collapsed (R122). -/
def Channel.discardLatch (e : Channel) : Channel :=
  if e.phase = .runningLatched then { e with collapsed := saturate Config.collapsedLimit e.collapsed } else e

/-- The counts a channel notice carries (R129). -/
def Channel.counts (e : Channel) : RunCounts := ⟨e.copied, e.collapsed, e.runsLeft⟩

/-- The channel notice of entry `e` as it stands, posted to its report set; collapsed is set to 0 as it is made
(R129). -/
def State.channelReports (s : State) (post : RunEndPost) (k : ChannelId) (e : Channel) (kinds : Byte) : State :=
  (s.setChannel k { e with collapsed := 0 }).postRunEnd post e.config.report
    (channelNotice k kinds e.config.priority e.counts)

/-- The state of channel `k` set. -/
def State.setPhase (s : State) (k : ChannelId) (phase : Phase) : State :=
  s.setChannel k { s.channel k with phase := phase }

/-- The state a channel takes at a normal run end with runs left: a latched one begins a new run (R123, R128). -/
def Channel.rerun (e : Channel) : Channel :=
  if e.phase = .runningLatched then { e with phase := .running, copied := 0 } else { e with phase := .armed }

/-- The normal run end of channel `k` (R128). -/
def State.normalRunEnd (s : State) (post : RunEndPost) (k : ChannelId) : State :=
  let e := { s.channel k with runsLeft := (s.channel k).runsLeft.spend }
  if e.runsLeft.exhausted then
    (s.channelReports post k e.discardLatch (kindDone ||| kindExhausted)).setPhase k .idle
  else
    let t := if e.config.notify = .eachRun then s.channelReports post k e kindDone else s.setChannel k e
    t.setChannel k (t.channel k).rerun

/-- The faulted run end of channel `k` (R130). -/
def State.faultedRunEnd (s : State) (post : RunEndPost) (k : ChannelId) : State :=
  let e := { s.channel k with runsLeft := (s.channel k).runsLeft.spend }
  if e.runsLeft.exhausted then
    (s.channelReports post k e.discardLatch (kindFault ||| kindExhausted)).setPhase k .idle
  else (s.channelReports post k e.discardLatch kindFault).setPhase k .armed

/-- A segment of channel `k` completes: performed with its size (R126), or refused (R130). `post` says when the notice of
the run end it may make is posted. -/
def State.segmentCompletes (s : State) (k : ChannelId) (moved : Option Nat) (post : RunEndPost) : State :=
  match moved with
  | none => s.faultedRunEnd post k
  | some size =>
    let e := s.channel k
    let t := s.setChannel k { e with copied := e.copied + size }
    if e.copied + size < e.config.length then t else t.normalRunEnd post k

/-- The abort of a channel by its state (R131). -/
def State.abort (s : State) (k : ChannelId) : State :=
  let e := s.channel k
  if e.inRun then (s.channelReports .atOnce k e.discardLatch kindAborted).setPhase k .idle else s.setPhase k .idle

/-! ### The channel requests -/

/-- The two ranges share an address (R117). -/
def rangesMeet (source destination length : Nat) : Bool :=
  source < destination + length && destination < source + length

/-- The channel and configuration that SET_CHANNEL's parameters name, or none where R117's check 1 fails. -/
def channelConfig? (b : ChannelBytes) : Option (ChannelId × ChannelConfig) :=
  let source := b.source.toNat
  let destination := b.destination.toNat
  let length := b.length.toNat
  match index? 4 b.channel with
  | none => none
  | some k =>
    if Config.arraySize ≤ source ∨ Config.arraySize ≤ destination then none
    else if length = 0 ∨ Config.runLimit < length then none
    else if Config.arraySize < source + length ∨ Config.arraySize < destination + length then none
    else if rangesMeet source destination length then none
    else if b.priority.toNat = 0 ∨ 7 < b.priority.toNat then none
    else if 16 ≤ b.report.toNat then none
    else
      some (k, {
        source := source
        destination := destination
        length := length
        sourceHold := b.flags.getLsbD 0
        budget := b.budget.toNat
        notify := if b.flags.getLsbD 1 then .lastRun else .eachRun
        priority := b.priority.toNat
        report := b.report.setWidth 4 })

/-- SET_CHANNEL (R117). -/
def applySetChannel (p : PortId) (b : ChannelBytes) (s : State) : Applied :=
  match channelConfig? b with
  | none => .answer s .badParameter
  | some (k, config) =>
    let e := s.channel k
    if e.owner ≠ .owned p then .answer s .notOwner
    else if e.phase ≠ .idle then .answer s .channelBusy
    else .done (s.setChannel k { e with config := config, runsLeft := .count 0, copied := 0, collapsed := 0 })

/-- The runs an ARM_CHANNEL loads from the budget (R118). -/
def ChannelConfig.runs (c : ChannelConfig) : Runs := if c.budget = 0 then .unlimited else .count c.budget

/-- ARM_CHANNEL (R118). -/
def applyArmChannel (p : PortId) (channel : Byte) (s : State) : Applied :=
  match index? 4 channel with
  | none => .answer s .badParameter
  | some k =>
    let e := s.channel k
    if e.owner ≠ .owned p then .answer s .notOwner
    else if e.phase ≠ .idle then .answer s .channelBusy
    else if e.config.length = 0 then .answer s .badParameter
    else .done (s.setChannel k { e with runsLeft := e.config.runs, collapsed := 0, phase := .armed })

/-- START_CHANNEL (R121). -/
def applyStartChannel (p : PortId) (channel : Byte) (s : State) : Applied :=
  match index? 4 channel with
  | none => .answer s .badParameter
  | some k =>
    let e := s.channel k
    if e.owner ≠ .owned p then .answer s .notOwner
    else if e.phase = .idle then .answer s .notArmed
    else .done (s.triggerChannel k)

/-- ABORT_CHANNEL as it is applied (R131). -/
def applyAbortChannel (p : PortId) (channel : Byte) (s : State) : Applied :=
  match index? 4 channel with
  | none => .answer s .badParameter
  | some k => if (s.channel k).owner ≠ .owned p then .answer s .notOwner else .done (s.abort k)

end Sys2Proof.Machine
end

