-- ==== Sys2Proof/Machine/Watches.lean ====
section
/-! DEFINITION. The watch table: holds, matching, compare evaluation, quiet reloads, lapses, and the watch requests
(chapters 4 and 5). -/

namespace Sys2Proof.Machine

/-! ### The compare word (R59) -/

/-- The addresses of the compare word. -/
def WatchConfig.wordAddrs (c : WatchConfig) : List Nat := span c.start c.width.bytes

/-- The compare word as the array stands. -/
def WatchConfig.word (c : WatchConfig) (m : Memory) : Nat := leValue (m.readAll c.wordAddrs)

/-- The outcome of evaluating the compare word as the array stands. -/
def WatchConfig.outcome (c : WatchConfig) (m : Memory) : Bool := c.condition.holds (c.word m) c.reference

/-! ### Holds (R65 to R67) -/

/-- The watch takes part in refusing a write (R66). -/
def Watch.refuses (e : Watch) (writer : Actor) (addrs : List Nat) : Bool :=
  e.config.enabled && e.config.hold && touches e.config.start e.config.stop addrs && !e.config.permits writer

/-- Some watch refuses the write with WATCH_HOLD (R66). -/
def State.watchHeld (s : State) (writer : Actor) (addrs : List Nat) : Bool :=
  watchIds.any (fun w => (s.watch w).refuses writer addrs)

/-- The subscribers that an indication with this actor notifies: exclude writer leaves out the port that acted
(R67, R73). -/
def Watch.audience (e : Watch) (actor : Actor) : BitVec 4 :=
  match actor with
  | .port p => if e.config.excludeWriter then e.subscribers &&& ~~~(single p.val) else e.subscribers
  | .channel _ => e.subscribers

/-- The watch with one more hit (R72). -/
def Watch.hit (e : Watch) : Watch := { e with hits := saturate Config.hitLimit e.hits }

/-- The BLOCKED indication of watch `w` if it takes part in the refusal (R67). -/
def State.block (writer : Actor) (addrs : List Nat) (address size : Nat) (s : State) (w : WatchId) : State :=
  let e := s.watch w
  if e.refuses writer addrs then
    (s.setWatch w e.hit).postTo (e.audience writer)
      (accessNotice w kindBlocked e.config.priority writer address size none)
  else s

/-- The BLOCKED indications of a write refused with WATCH_HOLD, in ascending watch number (R67, R79). -/
def State.blockAll (s : State) (writer : Actor) (addrs : List Nat) (address size : Nat) : State :=
  watchIds.foldl (State.block writer addrs address size) s

/-! ### Matching (R70 to R77) -/

/-- A performed access as it is presented to the watch table (R17, R70). -/
structure Presentation where
  actor : Actor
  addrs : List Nat
  address : Nat
  size : Nat
  write : Bool
  deriving DecidableEq, Repr

/-- A write touches the compare word of the watch (R74). -/
def Presentation.reachesWord (pr : Presentation) (c : WatchConfig) : Bool :=
  pr.write && touchesBlock c.start c.width.bytes pr.addrs

/-- The presentation touches the watch range (R58). -/
def Presentation.touchesRange (pr : Presentation) (c : WatchConfig) : Bool := touches c.start c.stop pr.addrs

/-- COMPARE is added to the kind set (R75); `m` is the array after the access. -/
def Presentation.comparesOn (pr : Presentation) (e : Watch) (m : Memory) : Bool :=
  e.config.hasCompare && pr.reachesWord e.config && e.config.mode.fires e.lastOutcome (e.config.outcome m)

/-- The kind set of a watch for a presentation (R71, R75). -/
def Presentation.kinds (pr : Presentation) (e : Watch) (m : Memory) : Byte :=
  (if e.config.hasAlter && pr.write then kindAlter else 0) |||
  (if e.config.hasRead && !pr.write then kindRead else 0) |||
  (if pr.comparesOn e m then kindCompare else 0)

/-- The last outcome after the evaluation that a write touching the compare word makes (R74). -/
def Watch.evaluate (e : Watch) (pr : Presentation) (m : Memory) : Watch :=
  if pr.reachesWord e.config then { e with lastOutcome := e.config.outcome m } else e

/-- The quiet reload that a write touching the range makes (R76). -/
def Watch.reload (e : Watch) (pr : Presentation) : Watch :=
  if pr.write && pr.touchesRange e.config && e.config.hasQuiet then
    { e with countdown := e.config.quietLimit, quiet := .running }
  else e

/-- The trigger an indication with this kind set sends: none without ALTER or COMPARE, and none to the actor's own
channel (R77). -/
def Watch.triggerFor (e : Watch) (actor : Actor) (kinds : Byte) : Option ChannelId :=
  match e.config.trigger with
  | none => none
  | some k => if kinds &&& (kindAlter ||| kindCompare) ≠ 0 ∧ actor ≠ .channel k then some k else none

/-- The notice of an indication (R73). -/
def Watch.indication (e : Watch) (w : WatchId) (pr : Presentation) (kinds : Byte) (m : Memory) : Notice :=
  accessNotice w kinds e.config.priority pr.actor pr.address pr.size
    (if kinds &&& kindCompare ≠ 0 then some (e.config.width, e.config.word m) else none)

/-- Watch `w` matched against a presentation: evaluation, reload, and the indication with its hit, its notices and its
trigger (R70 to R77). The second component is the set of channels this presentation has triggered. -/
def matchWatch (pr : Presentation) (acc : State × BitVec 4) (w : WatchId) : State × BitVec 4 :=
  let s := acc.1
  let e := s.watch w
  if !e.config.enabled then acc
  else
    let quietened := (e.evaluate pr s.array).reload pr
    let kinds := if pr.touchesRange e.config then pr.kinds e s.array else 0
    if kinds = 0 then (s.setWatch w quietened, acc.2)
    else
      ((s.setWatch w quietened.hit).postTo (e.audience pr.actor) (e.indication w pr kinds s.array)).triggerOnce acc.2
        (e.triggerFor pr.actor kinds)

/-- A presentation matched against the watch table, in ascending watch number (R70, R79). -/
def State.matchAll (s : State) (pr : Presentation) : State := (watchIds.foldl (matchWatch pr) (s, 0)).1

/-! ### Ticks and lapses (R86, R87) -/

/-- The watch counts ticks (R86). -/
def Watch.counting (e : Watch) : Bool := e.config.enabled && e.quiet == .running

/-- The watch after one tick is counted; a lapse that is due is made later, as one event with the tick (R86). -/
def Watch.count (e : Watch) : Watch := if e.counting then { e with countdown := e.countdown - 1 } else e

/-- The tick brings the watch's countdown from 1 to 0 (R86). -/
def Watch.runsOut (e : Watch) : Bool := e.counting && e.countdown == 1

/-- One tick counted at every watch, with the lapses it makes due, in ascending watch number (R86). -/
def State.countTick (s : State) : State :=
  { s with
    watches := tableMap Watch.count s.watches
    lapsesDue := watchIds.filter (fun w => (s.watch w).runsOut)
    tickTriggered := 0 }

/-- The lapse of watch `w` (R87). -/
def State.lapseOf (s : State) (w : WatchId) : State :=
  let e := s.watch w
  let t := (s.setWatch w ({ e with quiet := .lapsed, countdown := 0 } : Watch).hit).postTo e.subscribers
    (quietNotice w e.config.priority)
  let u := t.triggerOnce s.tickTriggered e.config.trigger
  { u.1 with tickTriggered := u.2 }

/-- The next lapse due of the latest tick (R86, R87). -/
def State.nextLapse (s : State) : State :=
  match s.lapsesDue with
  | [] => s
  | w :: rest => { s.lapseOf w with lapsesDue := rest }

/-- All the lapses due of the latest tick, which are one event with it (R86). -/
def State.finishLapses (s : State) : State :=
  { s.lapsesDue.foldl State.lapseOf s with lapsesDue := [] }

/-- One tick with all its lapses, as one event (R86). -/
def State.wholeTick (s : State) : State := s.countTick.finishLapses

/-! ### The watch requests -/

/-- The watch flags a SET_WATCH carries (Table 9-3). -/
def compareMode (b : WatchBytes) : CompareMode := if b.flags.getLsbD 3 then .level else .edge

/-- The compare word lies wholly inside the range (R60). -/
def wordInside (start stop size : Nat) : Bool := (span start size).all (inRange start stop)

/-- The watch and configuration that SET_WATCH's parameters name, or none where R60's check 1 fails. -/
def watchConfig? (b : WatchBytes) : Option (WatchId × WatchConfig) :=
  let start := b.start.toNat
  let stop := b.stop.toNat
  match index? 16 b.watch, width? b.width, condition? b.condition, trigger? b.trigger with
  | some w, some width, some condition, some trigger =>
    if Config.arraySize ≤ start ∨ Config.arraySize ≤ stop then none
    else if Config.arraySize < start + width.bytes then none
    else if b.kinds.getLsbD 2 ∧ ¬ wordInside start stop width.bytes then none
    else if width.modulus ≤ b.reference.toNat then none
    else if b.quietLimit.toNat = 0 then none
    else if b.priority.toNat = 0 ∨ 7 < b.priority.toNat then none
    else
      some (w, {
        enabled := b.flags.getLsbD 0
        start := start
        stop := stop
        kinds := b.kinds.setWidth 4
        hold := b.flags.getLsbD 1
        permit := b.permit
        width := width
        condition := condition
        reference := b.reference.toNat
        mode := compareMode b
        quietLimit := b.quietLimit.toNat
        priority := b.priority.toNat
        excludeWriter := b.flags.getLsbD 2
        trigger := trigger })
  | _, _, _, _ => none

/-- The watch as a SET_WATCH with this configuration leaves it (R61, R62); owner and subscribers stand. -/
def Watch.setTo (e : Watch) (c : WatchConfig) (m : Memory) : Watch :=
  let counts := c.enabled && c.hasQuiet
  { e with
    config := c
    hits := 0
    lastOutcome := c.enabled && c.outcome m
    quiet := if counts then .running else .stopped
    countdown := if counts then c.quietLimit else 0 }

/-- SET_WATCH (R60 to R62). -/
def applySetWatch (p : PortId) (b : WatchBytes) (s : State) : Applied :=
  match watchConfig? b with
  | none => .answer s .badParameter
  | some (w, c) =>
    let e := s.watch w
    if e.owner ≠ .owned p then .answer s .notOwner else .done (s.setWatch w (e.setTo c s.array))

/-- SUBSCRIBE (R63). -/
def applySubscribe (p : PortId) (watch : Byte) (s : State) : Applied :=
  match index? 16 watch with
  | none => .answer s .badParameter
  | some w =>
    let e := s.watch w
    if e.owner = .free then .answer s .badParameter
    else .done (s.setWatch w { e with subscribers := e.subscribers ||| single p.val })

/-- UNSUBSCRIBE (R64). -/
def applyUnsubscribe (p : PortId) (watch : Byte) (s : State) : Applied :=
  match index? 16 watch with
  | none => .answer s .badParameter
  | some w =>
    let e := s.watch w
    if e.owner = .free then .answer s .badParameter
    else .done (s.setWatch w { e with subscribers := e.subscribers &&& ~~~(single p.val) })

end Sys2Proof.Machine
end

