-- ==== Sys2Proof/Machine/Anchors.lean ====
section
/-! DEFINITION. The anchor table and cursor requests: SET_ANCHOR, BIND_CURSOR, QUERY_CURSOR (chapter 2). -/

namespace Sys2Proof.Machine

/-- A cursor bound to the anchor goes back to offset 0 (R25). -/
def rewindBinding (a : AnchorId) : Option Binding → Option Binding
  | some b => if b.anchor = a then some ⟨a, 0⟩ else some b
  | none => none

/-- A cursor bound to the anchor becomes UNBOUND (R26, R47). -/
def unbindFrom (a : AnchorId) : Option Binding → Option Binding
  | some b => if b.anchor = a then none else some b
  | none => none

/-- The base that carries NULL (Table 9-2). -/
def nullBase : Half := 65535

/-- SET_ANCHOR (R24 to R26). -/
def applySetAnchor (p : PortId) (b : AnchorBytes) (s : State) : Applied :=
  match index? 32 b.anchor, access? b.access with
  | some a, some access =>
    let base := b.base.toNat
    let length := b.length.toNat
    let ring := b.ring != 0
    let e := s.anchor a
    if b.base ≠ nullBase ∧ (length = 0 ∨ Config.arraySize < length) then .answer s .badParameter
    else if e.owner ≠ .owned p then .answer s .notOwner
    else if b.base = nullBase then
      .done ((s.setAnchor a { e with region := none, ring := ring, access := access }).mapCursors (unbindFrom a))
    else if Config.arraySize < base + length then .answer s .outOfRange
    else
      .done ((s.setAnchor a { e with region := some ⟨base, length⟩, ring := ring, access := access }).mapCursors
        (rewindBinding a))
  | _, _ => .answer s .badParameter

/-- The offset is admitted for a cursor of the anchor (R28). -/
def Region.admitsOffset (g : Region) (ring : Bool) (offset : Nat) : Bool :=
  if ring then offset < g.length else offset ≤ g.length

/-- BIND_CURSOR (R28). -/
def applyBindCursor (p : PortId) (cursor anchor : Byte) (offset : Half) (s : State) : Applied :=
  match index? 4 cursor, index? 32 anchor with
  | some c, some a =>
    match (s.anchor a).region with
    | none => .answer s .nullAnchor
    | some g =>
      if !g.admitsOffset (s.anchor a).ring offset.toNat then .answer s .outOfRange
      else .done (s.modPort p (fun q => q.setCursor c (some ⟨a, offset.toNat⟩)))
  | _, _ => .answer s .badParameter

/-- QUERY_CURSOR (R29). -/
def applyQueryCursor (p : PortId) (cursor : Byte) (s : State) : Applied :=
  match index? 4 cursor with
  | none => .answer s .badParameter
  | some c => .report s (bindingBytes ((s.port p).cursor c))

end Sys2Proof.Machine
end

