-- ==== Sys2Proof/Machine/Ownership.lean ====
section
/-! DEFINITION. Entry ownership: CLAIM, ADOPT, RELEASE, QUERY_ENTRY, and the orphaning of a port's entries
(chapter 3). -/

namespace Sys2Proof.Machine

/-- The owner field of an entry (R42). -/
def State.ownerOf (s : State) : Entry → Owner
  | .anchor a => (s.anchor a).owner
  | .watch w => (s.watch w).owner
  | .channel k => (s.channel k).owner

/-- An entry with its owner field set and nothing else changed. -/
def State.setOwner (s : State) (x : Entry) (o : Owner) : State :=
  match x with
  | .anchor a => s.setAnchor a { s.anchor a with owner := o }
  | .watch w => s.setWatch w { s.watch w with owner := o }
  | .channel k => s.setChannel k { s.channel k with owner := o }

/-- CLAIM (R43, R44). -/
def applyClaim (p : PortId) (table index : Byte) (s : State) : Applied :=
  match entry? table index with
  | none => .answer s .badParameter
  | some x => if s.ownerOf x = .free then .done (s.setOwner x (.owned p)) else .answer s .entryTaken

/-- ADOPT (R43, R45). -/
def applyAdopt (p : PortId) (table index : Byte) (s : State) : Applied :=
  match entry? table index with
  | none => .answer s .badParameter
  | some x => if s.ownerOf x = .orphaned then .done (s.setOwner x (.owned p)) else .answer s .notOrphaned

/-- A watch after its RELEASE (R48). -/
def Watch.released (e : Watch) : Watch :=
  { e with
    owner := .free
    config := { e.config with enabled := false, permit := 0, hold := false }
    subscribers := 0
    quiet := .stopped
    hits := 0 }

/-- The effects of a RELEASE on the entry's table (R47 to R49). -/
def State.releaseEntry (s : State) : Entry → State
  | .anchor a => (s.setAnchor a Anchor.default).mapCursors (unbindFrom a)
  | .watch w => s.setWatch w (s.watch w).released
  | .channel k => s.setChannel k Channel.default

/-- The entry is a channel that is not IDLE (R46, check 2). -/
def State.busyEntry (s : State) : Entry → Bool
  | .anchor _ => false
  | .watch _ => false
  | .channel k => (s.channel k).phase != .idle

/-- RELEASE (R43, R46 to R49). -/
def applyRelease (p : PortId) (table index : Byte) (s : State) : Applied :=
  match entry? table index with
  | none => .answer s .badParameter
  | some x =>
    if s.ownerOf x ≠ .owned p then .answer s .notOwner
    else if s.busyEntry x then .answer s .channelBusy
    else .done (s.releaseEntry x)

/-- The snapshot that QUERY_ENTRY returns (R54). -/
def State.entryBytes (s : State) : Entry → List Byte
  | .anchor a => (s.anchor a).bytes
  | .watch w => (s.watch w).bytes
  | .channel k => (s.channel k).bytes

/-- QUERY_ENTRY (R43, R54). -/
def applyQueryEntry (_p : PortId) (table index : Byte) (s : State) : Applied :=
  match entry? table index with
  | none => .answer s .badParameter
  | some x => .report s (s.entryBytes x)

/-! ### Orphaning (R51) -/

/-- The owner field after a port reset of `p` (R51). -/
def Owner.orphan (p : PortId) (o : Owner) : Owner := if o = .owned p then .orphaned else o

/-- An anchor after a port reset of `p` (R23). -/
def Anchor.orphan (p : PortId) (e : Anchor) : Anchor := { e with owner := e.owner.orphan p }

/-- A set of ports without port `p`. -/
def without (p : PortId) (set : BitVec 4) : BitVec 4 := set &&& ~~~(single p.val)

/-- A watch with `p` out of its subscriber set. -/
def Watch.leave (p : PortId) (e : Watch) : Watch := { e with subscribers := without p e.subscribers }

/-- A channel with `p` out of its report set. -/
def Channel.leave (p : PortId) (e : Channel) : Channel :=
  { e with config := { e.config with report := without p e.config.report } }

/-- A notice still to be posted, which port `p` no longer receives (R135). -/
def LateNotice.leave (p : PortId) (l : LateNotice) : LateNotice := { l with ports := without p l.ports }

/-- Port `p` out of every subscriber set and report set (R140, R143). -/
def State.leaveSets (s : State) (p : PortId) : State :=
  { s with
    watches := tableMap (Watch.leave p) s.watches
    channels := tableMap (Channel.leave p) s.channels
    lateNotice := s.lateNotice.map (LateNotice.leave p) }

/-- A watch after a port reset of `p` (R57). -/
def Watch.orphan (p : PortId) (e : Watch) : Watch := { e.leave p with owner := e.owner.orphan p }

/-- A channel after a port reset of `p` (R116). -/
def Channel.orphan (p : PortId) (e : Channel) : Channel := { e.leave p with owner := e.owner.orphan p }

end Sys2Proof.Machine
end

