-- ==== Sys2Proof/Machine/Ports.lean ====
section
/-! DEFINITION. Port states and presence: the port reset, ATTACH, DETACH, DOZE, SET_LEVELS, CLEAR_FLAGS
(chapter 8). -/

namespace Sys2Proof.Machine

/-- The port's own part of its port reset (R143): queue, counter, levels, stack, flags and cursors. The result slot
stands. -/
def Port.reset (q : Port) : Port :=
  Port.drive { q with
    queue := []
    nextSeq := 0
    overrun := false
    stack := []
    threshold := 1
    wake := 1
    busyRefused := false
    frameFault := false
    cursors := Vector.replicate 4 none }

/-- The port reset of `p` (R143). -/
def State.portReset (s : State) (p : PortId) : State :=
  { s.modPort p Port.reset with
    anchors := tableMap (Anchor.orphan p) s.anchors
    watches := tableMap (Watch.orphan p) s.watches
    channels := tableMap (Channel.orphan p) s.channels
    lateNotice := s.lateNotice.map (LateNotice.leave p) }

/-- A port's state set, with nATTN following it (R108). -/
def State.setMode (s : State) (p : PortId) (m : PortMode) : State :=
  s.modPort p (fun q => Port.drive { q with mode := m })

/-- A PRESENCE notice of port `p` posted to each other port (R144). -/
def State.announce (s : State) (p : PortId) (kind : Byte) : State :=
  s.postTo (~~~(single p.val)) (presenceNotice p kind)

/-- ATTACH (R140, R141). An ATTACH from DETACHED leaves `p` in no subscriber set and no report set, also where a peer's
SET_CHANNEL has put it into one while it was DETACHED (R117): the sentence of R140 is followed (DEDUCED, log
entry 24). -/
def applyAttach (p : PortId) (s : State) : Applied :=
  if (s.port p).mode = .detached then .done (((s.leaveSets p).setMode p .attached).announce p kindAttached)
  else .done (((s.portReset p).setMode p .attached).announce p kindReattached)

/-- DETACH (R142). -/
def applyDetach (p : PortId) (s : State) : Applied :=
  .done (((s.portReset p).setMode p .detached).announce p kindDetached)

/-- DOZE (R145). -/
def applyDoze (p : PortId) (s : State) : Applied :=
  if (s.port p).wakeable then .answer s .dozeDeclined else .done (s.setMode p .dozing)

/-- SET_LEVELS (R148). -/
def applySetLevels (p : PortId) (threshold wake : Byte) (s : State) : Applied :=
  if threshold.toNat = 0 ∨ 8 < threshold.toNat ∨ wake.toNat = 0 ∨ 7 < wake.toNat then .answer s .badParameter
  else .done (s.modPort p (fun q => Port.drive { q with threshold := threshold.toNat, wake := wake.toNat }))

/-- CLEAR_FLAGS (R149). The flag set is bit 3 OVERRUN, bit 2 BUSY_REFUSED, bit 1 FRAME_FAULT (Table 9-3). -/
def applyClearFlags (p : PortId) (flags : Byte) (s : State) : Applied :=
  if flags &&& 0xF1 ≠ 0 then .answer s .badParameter
  else
    .done (s.modPort p (fun q =>
      { q with
        overrun := q.overrun && !flags.getLsbD 3
        busyRefused := q.busyRefused && !flags.getLsbD 2
        frameFault := q.frameFault && !flags.getLsbD 1 }))

end Sys2Proof.Machine
end

