-- ==== Sys2Proof/Machine/Requests.lean ====
section
/-! DEFINITION. Taking, deferring and applying requests (R7, R160, R161), and what is due before the next command. -/

namespace Sys2Proof.Machine

/-- A table, port or ownership request of port `p` applied by the block that owns its state (R160). -/
def applyRequest (p : PortId) (r : Request) (s : State) : Applied :=
  match r with
  | .attach => applyAttach p s
  | .detach => applyDetach p s
  | .doze => applyDoze p s
  | .setLevels threshold wake => applySetLevels p threshold wake s
  | .clearFlags flags => applyClearFlags p flags s
  | .takeNotice mode => applyTakeNotice p mode s
  | .finishService => applyFinishService p s
  | .setAnchor a => applySetAnchor p a s
  | .bindCursor cursor anchor offset => applyBindCursor p cursor anchor offset s
  | .queryCursor cursor => applyQueryCursor p cursor s
  | .setWatch w => applySetWatch p w s
  | .subscribe watch => applySubscribe p watch s
  | .unsubscribe watch => applyUnsubscribe p watch s
  | .setChannel c => applySetChannel p c s
  | .armChannel channel => applyArmChannel p channel s
  | .startChannel channel => applyStartChannel p channel s
  | .abortChannel channel => applyAbortChannel p channel s
  | .claim table index => applyClaim p table index s
  | .adopt table index => applyAdopt p table index s
  | .release table index => applyRelease p table index s
  | .queryEntry table index => applyQueryEntry p table index s

/-- A request applied and completed (R161): its effects, then its outcome in the result slot. -/
def State.applyAndComplete (s : State) (p : PortId) (r : Request) : State :=
  let x := applyRequest p r s
  x.state.complete p x.code x.data

/-- How a request waits for the access completion of the grant that holds the array: an ABORT_CHANNEL for a segment of
its own channel (R132), any other for the completion as such (R160). -/
def deferral (g : Grant) (r : Request) : InFlight :=
  match g, r with
  | .segment k _, .abortChannel channel => if channel.toNat = k.val then .afterSegment k else .deferred r
  | _, _ => .deferred r

/-- A request or a tick waits for the access completion, behind what waits already (R55, R90). -/
def State.enqueue (s : State) (d : Deferred) : State := { s with deferredOrder := s.deferredOrder ++ [d] }

/-- A table, port or ownership request taken (R160): applied at its taking, or in flight while a grant holds the
array. -/
def State.takeRequest (s : State) (p : PortId) (tag : Byte) (r : Request) : State :=
  match s.grant with
  | none => (s.showPending p tag).applyAndComplete p r
  | some g => ((s.showPending p tag).setInFlight p (deferral g r)).enqueue (.request p)

/-- A memory request taken (R9, R160): refused at once, or waiting with its claim raised (R5). -/
def State.takeMemory (s : State) (p : PortId) (tag : Byte) (r : Except ResultCode MemoryRequest) : State :=
  match r with
  | .error code => (s.showPending p tag).complete p code []
  | .ok r => (s.showPending p tag).setInFlight p (.waiting r)

/-- Port `p`'s request that waited for an access completion, applied (R160): an abort that waited for its channel's
segment is the ABORT_CHANNEL of that channel (R132). -/
def State.applyDeferred (s : State) (p : PortId) : State :=
  match (s.port p).inFlight with
  | some (.deferred r) => s.applyAndComplete p r
  | some (.afterSegment k) => s.applyAndComplete p (.abortChannel (BitVec.ofNat 8 k.val))
  | _ => s

/-- What waited for the access completion takes effect: a request is applied (R160, R132), a tick is counted with its
lapses (R83, R86). -/
def State.applyWaiting (s : State) (d : Deferred) : State :=
  match d with
  | .request p => s.applyDeferred p
  | .tick => s.wholeTick

/-- The requests and ticks that waited for the access completion, one at a time in the order in which they came: R55
fixes it between ownership requests; R90, R110 to R113, R134 and R135 admit either order of others, and the sender's
decides (DESIGN CHOICE, log entries 6, 7 and 27). A tick before a waiting abort may trigger its channel (R134, log entry
28). -/
def State.applyAllDeferred (s : State) : State :=
  s.deferredOrder.foldl State.applyWaiting { s with deferredOrder := [] }

/-- What waits is an abort that waited for its channel's segment (R132). -/
def State.abortWaits (s : State) (d : Deferred) : Bool :=
  match d with
  | .tick => false
  | .request p =>
    match (s.port p).inFlight with
    | some (.afterSegment _) => true
    | _ => false

/-- Port `p`'s request that waited for the access completion, applied after the requests and ticks that came before it;
the aborts among them go on waiting for their own command (DESIGN CHOICE, log entry 27). -/
def State.applyDeferredUpTo (s : State) (p : PortId) : State :=
  let before := s.deferredOrder.takeWhile (fun d => d != .request p)
  let behind := (s.deferredOrder.dropWhile (fun d => d != .request p)).drop 1
  ((before.filter (fun d => !s.abortWaits d)).foldl State.applyWaiting
    { s with deferredOrder := before.filter s.abortWaits ++ behind }).applyDeferred p

/-- Port `p`'s request that waited for the access completion, applied before everything else that waited for it. -/
def State.applyDeferredFirst (s : State) (p : PortId) : State :=
  ({ s with deferredOrder := s.deferredOrder.erase (.request p) } : State).applyDeferred p

/-- What waited for the last access completion, once the array is free, in the order in which it came (R83, R132, R160;
log entries 7 and 27). -/
def State.afterCompletion (s : State) : State :=
  match s.grant with
  | some _ => s
  | none => s.applyAllDeferred

/-- What is due before a grant: the lapses of the latest tick, which are one event with it (R86), and what waited for
the last access completion. A run-end notice still to be posted stays so (R111). -/
def State.clearWay (s : State) : State := s.finishLapses.afterCompletion

/-- What is due before any other command: the lapses, a run-end notice still to be posted, and what waited for the last
access completion (log entries 5, 6, 7 and 23). -/
def State.settle (s : State) : State := s.finishLapses.postLate.afterCompletion

end Sys2Proof.Machine
end

