-- ==== Sys2Proof/Machine/Frames.lean ====
section
/-! DEFINITION. Frames (chapter 9): frame start, the decision at frame end, and the meanings of the frame-end
commands. -/

namespace Sys2Proof.Machine

/-! ### Frame start and frame end -/

/-- A DOZING port becomes ATTACHED (R147). -/
def State.wakePort (s : State) (p : PortId) : State :=
  if (s.port p).mode = .dozing then s.setMode p .attached else s

/-- A frame starts on port `p` (R153, R147): the header is captured, then a DOZING port becomes ATTACHED. -/
def State.startFrame (s : State) (p : PortId) : State :=
  (s.modPort p (fun q => { q with frame := some ⟨s.header p, s.ready, false⟩ })).wakePort p

/-- The state at a frame end, in which a frame is in progress and the port is not DOZING (R156). A frame end for which
no frame start was commanded stands for a whole frame (log entry 2); a port that a deferred DOZE made DOZING during the
frame is woken at its end (log entry 19). A frame whose start came without supply or before POWER_ON_RESET is in
progress here as an abandoned one, so that its end takes no request even after FILL_END; the spec says so of a frame
that starts while READY is clear (R163) and is silent on a part without supply (DESIGN CHOICE, log entry 25). -/
def State.openFrame (s : State) (p : PortId) : State :=
  if (s.port p).frame.isSome then s.wakePort p else s.startFrame p

/-- The frame ends: its header is no longer kept for shifting out (R153). -/
def State.closeFrame (s : State) (p : PortId) (bits : Nat) : State :=
  s.modPort p (fun q => { q with frame := none, shifted := q.frame.map (fun f => ⟨f.header, bits⟩) })

/-- What the first byte of a frame names, as far as R156 distinguishes it. -/
inductive FrameKind where
  | nop
  | unknown
  | attach
  | request
  deriving DecidableEq, Repr

/-- How port `p` decides a frame at its end (R156). -/
inductive Verdict where
  | notReady
  | empty
  | lengthFault
  | nop
  | busy
  | unknownCode
  | notAttached
  | taken
  deriving DecidableEq, Repr

/-- The checks of R156, in its order, on the port at frame end. `fits` says whether the length matches the code by
R157. A frame that an nRESET assertion abandoned takes no request and sets no flag (R164). -/
def Port.verdict (q : Port) (bits : Nat) (fits : Bool) (kind : FrameKind) : Verdict :=
  match q.frame with
  | none => .notReady
  | some f =>
    if f.abandoned || !f.ready then .notReady
    else if bits = 0 then .empty
    else if !fits then .lengthFault
    else if kind = .nop then .nop
    else if q.inFlight.isSome then .busy
    else if kind = .unknown then .unknownCode
    else if q.mode = .detached ∧ kind ≠ .attach then .notAttached
    else .taken

/-- The request completes at the event of its taking with this outcome and no data (R139, R156). -/
def State.answerNow (s : State) (p : PortId) (tag : Byte) (code : ResultCode) : State :=
  (s.showPending p tag).complete p code []

/-- What a verdict does; `take` takes the frame's request (R156 to R160). -/
def State.decide (s : State) (p : PortId) (tag : Byte) (v : Verdict) (take : State → State) : State :=
  match v with
  | .notReady => s
  | .empty => s
  | .lengthFault => s.modPort p (fun q => { q with frameFault := true })
  | .nop => s
  | .busy => s.modPort p (fun q => { q with busyRefused := true })
  | .unknownCode => s.answerNow p tag .badRequest
  | .notAttached => s.answerNow p tag .notAttached
  | .taken => take s

/-- A frame end on a powered part (R156): the verdict is made on the port as it stands, then the frame is over. -/
def State.endFrame (s : State) (p : PortId) (bits : Nat) (tag : Byte) (fits : Bool) (kind : FrameKind)
    (take : State → State) : State :=
  let t := s.settle.openFrame p
  (t.closeFrame p bits).decide p tag ((t.port p).verdict bits fits kind) take

/-- The chip select of port `p` without supply: a frame in progress there is kept as the dark frame, or over
(log entry 25). -/
def State.darkFrame (s : State) (p : PortId) (f : Option OpenFrame) : State := s.modPort p (fun q => { q with frame := f })

/-- A frame-end command: without supply there is no part to decide a frame (R2), and the chip select is released. -/
def frameEnd (p : PortId) (bits : Nat) (tag : Byte) (fits : Bool) (kind : FrameKind) (take : State → State)
    (s : State) : Host.Outcome State Fault Refusal :=
  .next (if s.supply then s.endFrame p bits tag fits kind take else s.darkFrame p none)

/-- The frame end of a table, port or ownership request with this code (R156, R160). -/
def requestFrame (f : Frame) (code : Byte) (kind : FrameKind) (r : Request) (s : State) :
    Host.Outcome State Fault Refusal :=
  frameEnd f.port f.bits f.tag (frameFits code 0 f.bits) kind (fun t => t.takeRequest f.port f.tag r) s

/-- The frame end of a memory request with this code (R9, R156, R160). -/
def memoryFrame (f : Frame) (fits : Bool) (target : TargetBytes) (op : Option MemoryOp) (s : State) :
    Host.Outcome State Fault Refusal :=
  frameEnd f.port f.bits f.tag fits .request (fun t => t.takeMemory f.port f.tag (checkAtTaking target op)) s

/-! ### The meanings -/

/-- FRAME_START (R147, R153). -/
def execFrameStart (p : PortId) (s : State) : Host.Outcome State Fault Refusal :=
  .next (if s.supply then s.settle.startFrame p else s.darkFrame p (some OpenFrame.dark))

/-- EMPTY_FRAME (R156, R162). -/
def execEmptyFrame (p : PortId) (s : State) : Host.Outcome State Fault Refusal :=
  frameEnd p 0 0 false .nop id s

/-- NOP (R157, R162). -/
def execNop (p : PortId) (bits : Nat) (s : State) : Host.Outcome State Fault Refusal :=
  frameEnd p bits 0 (frameFits 0x00 0 bits) .nop id s

/-- UNKNOWN_CODE (R156, R157). A frame of at least two whole bytes matches. -/
def execUnknownCode (f : Frame) (_code : Byte) (s : State) : Host.Outcome State Fault Refusal :=
  frameEnd f.port f.bits f.tag (f.bits % 8 == 0 && 16 ≤ f.bits) .unknown id s

/-- ATTACH (R140, R141). -/
def execAttach (f : Frame) (s : State) : Host.Outcome State Fault Refusal := requestFrame f 0x01 .attach .attach s

/-- DETACH (R142). -/
def execDetach (f : Frame) (s : State) : Host.Outcome State Fault Refusal := requestFrame f 0x02 .request .detach s

/-- DOZE (R145). -/
def execDoze (f : Frame) (s : State) : Host.Outcome State Fault Refusal := requestFrame f 0x03 .request .doze s

/-- SET_LEVELS (R148). -/
def execSetLevels (f : Frame) (threshold wake : Byte) (s : State) : Host.Outcome State Fault Refusal :=
  requestFrame f 0x04 .request (.setLevels threshold wake) s

/-- CLEAR_FLAGS (R149). -/
def execClearFlags (f : Frame) (flags : Byte) (s : State) : Host.Outcome State Fault Refusal :=
  requestFrame f 0x05 .request (.clearFlags flags) s

/-- TAKE_NOTICE (R102 to R104). -/
def execTakeNotice (f : Frame) (mode : Byte) (s : State) : Host.Outcome State Fault Refusal :=
  requestFrame f 0x06 .request (.takeNotice mode) s

/-- FINISH_SERVICE (R105). -/
def execFinishService (f : Frame) (s : State) : Host.Outcome State Fault Refusal :=
  requestFrame f 0x07 .request .finishService s

/-- READ (R9, R11). -/
def execRead (f : Frame) (target : TargetBytes) (size : Byte) (s : State) : Host.Outcome State Fault Refusal :=
  memoryFrame f (frameFits 0x10 0 f.bits) target (readOp? size) s

/-- WRITE (R9, R12). The frame matches its code when its length is the one its size byte asks for, with that many data
bytes (R157). -/
def execWrite (f : Frame) (target : TargetBytes) (size : Byte) (data : List Byte) (s : State) :
    Host.Outcome State Fault Refusal :=
  memoryFrame f (frameFits 0x11 size f.bits && data.length == writeDataLength size) target (writeOp? size data) s

/-- EXCHANGE (R9, R13). -/
def execExchange (f : Frame) (target : TargetBytes) (width : Byte) (expected new : Quad) (s : State) :
    Host.Outcome State Fault Refusal :=
  memoryFrame f (frameFits 0x12 0 f.bits) target (exchangeOp? width expected new) s

/-- FETCH_ADD (R9, R14). -/
def execFetchAdd (f : Frame) (target : TargetBytes) (width : Byte) (addend : Quad) (s : State) :
    Host.Outcome State Fault Refusal :=
  memoryFrame f (frameFits 0x13 0 f.bits) target (fetchAddOp? width addend) s

/-- SET_ANCHOR (R24 to R26). -/
def execSetAnchor (f : Frame) (a : AnchorBytes) (s : State) : Host.Outcome State Fault Refusal :=
  requestFrame f 0x20 .request (.setAnchor a) s

/-- BIND_CURSOR (R28). -/
def execBindCursor (f : Frame) (cursor anchor : Byte) (offset : Half) (s : State) :
    Host.Outcome State Fault Refusal :=
  requestFrame f 0x21 .request (.bindCursor cursor anchor offset) s

/-- QUERY_CURSOR (R29). -/
def execQueryCursor (f : Frame) (cursor : Byte) (s : State) : Host.Outcome State Fault Refusal :=
  requestFrame f 0x22 .request (.queryCursor cursor) s

/-- SET_WATCH (R60 to R62). -/
def execSetWatch (f : Frame) (w : WatchBytes) (s : State) : Host.Outcome State Fault Refusal :=
  requestFrame f 0x30 .request (.setWatch w) s

/-- SUBSCRIBE (R63). -/
def execSubscribe (f : Frame) (watch : Byte) (s : State) : Host.Outcome State Fault Refusal :=
  requestFrame f 0x31 .request (.subscribe watch) s

/-- UNSUBSCRIBE (R64). -/
def execUnsubscribe (f : Frame) (watch : Byte) (s : State) : Host.Outcome State Fault Refusal :=
  requestFrame f 0x32 .request (.unsubscribe watch) s

/-- SET_CHANNEL (R117). -/
def execSetChannel (f : Frame) (c : ChannelBytes) (s : State) : Host.Outcome State Fault Refusal :=
  requestFrame f 0x40 .request (.setChannel c) s

/-- ARM_CHANNEL (R118). -/
def execArmChannel (f : Frame) (channel : Byte) (s : State) : Host.Outcome State Fault Refusal :=
  requestFrame f 0x41 .request (.armChannel channel) s

/-- START_CHANNEL (R121). -/
def execStartChannel (f : Frame) (channel : Byte) (s : State) : Host.Outcome State Fault Refusal :=
  requestFrame f 0x42 .request (.startChannel channel) s

/-- ABORT_CHANNEL (R131, R132). -/
def execAbortChannel (f : Frame) (channel : Byte) (s : State) : Host.Outcome State Fault Refusal :=
  requestFrame f 0x43 .request (.abortChannel channel) s

/-- CLAIM (R44). -/
def execClaim (f : Frame) (table index : Byte) (s : State) : Host.Outcome State Fault Refusal :=
  requestFrame f 0x50 .request (.claim table index) s

/-- ADOPT (R45). -/
def execAdopt (f : Frame) (table index : Byte) (s : State) : Host.Outcome State Fault Refusal :=
  requestFrame f 0x51 .request (.adopt table index) s

/-- RELEASE (R46 to R49). -/
def execRelease (f : Frame) (table index : Byte) (s : State) : Host.Outcome State Fault Refusal :=
  requestFrame f 0x52 .request (.release table index) s

/-- QUERY_ENTRY (R54). -/
def execQueryEntry (f : Frame) (table index : Byte) (s : State) : Host.Outcome State Fault Refusal :=
  requestFrame f 0x53 .request (.queryEntry table index) s

end Sys2Proof.Machine
end

