-- ==== Sys2Proof/Machine/Grants.lean ====
section
/-! DEFINITION. The array arbiter and what a grant does: a port's memory request (R16), a copy segment (R125), the
access completion with what waited for it, and the ticks and lapses (R83 to R87). -/

namespace Sys2Proof.Machine

/-! ### The arbiter (R5, R6) -/

/-- Port `p`'s claim: pending from the taking of a memory request to its grant (R5). -/
def State.portClaim (s : State) (p : PortId) : Bool :=
  match (s.port p).inFlight with
  | some (.waiting _) => true
  | _ => false

/-- The claim of a requester (R5). -/
def State.claims (s : State) (r : Requester) : Bool :=
  if h : r.val < 4 then s.portClaim ⟨r.val, h⟩ else s.engineClaim

/-- The array can be granted: the part is ready and no grant holds the array (R6). -/
def State.arrayFree (s : State) : Bool := s.ready && s.grant.isNone

/-- The arbiter's choice: the first requester with a claim pending, from the pointer on (R6). -/
def State.arbiterChoice (s : State) : Option Requester :=
  if s.arrayFree then
    [s.pointer, s.pointer + 1, s.pointer + 2, s.pointer + 3, s.pointer + 4].find? (fun r => s.claims r)
  else none

/-- The pointer names the requester after the granted one (R6). -/
def State.advancePointer (s : State) (r : Requester) : State := { s with pointer := r + 1 }

/-! ### A memory request at its grant (R16) -/

/-- The access of a memory request holds the array with its outcome (R7, R18). -/
def State.holdArray (s : State) (p : PortId) (code : ResultCode) (data : List Byte) : State :=
  { s.setInFlight p .granted with grant := some (.access p code data) }

/-- The NULL_REF notice of a NULL_ANCHOR refusal, to the anchor's owner when that is another port (R33). -/
def State.reportNullRef (s : State) (p : PortId) (r : MemoryRequest) : State :=
  match r.target with
  | .anchored a _ =>
    match (s.anchor a).owner with
    | .owned o => if o = p then s else s.postTo (single o.val) (nullRefNotice a (.port p) r.op.size)
    | .free => s
    | .orphaned => s
  | .absolute _ => s
  | .cursor _ _ => s

/-- What performing an operation at its addresses gives: the array after it, the outcome, the result data, and whether
it is presented as a write (R11 to R15, Table 1-2). -/
structure Performed where
  array : Memory
  code : ResultCode
  data : List Byte
  write : Bool
  deriving DecidableEq, Repr

/-- The performance of a memory request (R11 to R15). -/
def MemoryOp.perform (op : MemoryOp) (m : Memory) (addrs : List Nat) : Performed :=
  match op with
  | .read _ => ⟨m, .done, m.readAll addrs, false⟩
  | .write data => ⟨m.writeAll addrs data, .done, [], true⟩
  | .exchange width expected new =>
    if leValue (m.readAll addrs) = expected then
      ⟨m.writeAll addrs (leBytes width.bytes new), .done, m.readAll addrs, true⟩
    else ⟨m, .compareFailed, m.readAll addrs, false⟩
  | .fetchAdd width addend =>
    ⟨m.writeAll addrs (leBytes width.bytes ((leValue (m.readAll addrs) + addend) % width.modulus)), .done,
      m.readAll addrs, true⟩

/-- The cursor motion of a performed access, stored in the port's cursor (R38). -/
def State.storeMotion (s : State) (p : PortId) (motion : Option (CursorId × Nat)) : State :=
  match motion with
  | none => s
  | some (c, o) => s.modPort p (fun q => q.setCursor c ((q.cursor c).map (fun b => ⟨b.anchor, o⟩)))

/-- The first address of an access (R17). -/
def firstAddress (addrs : List Nat) : Nat := addrs.headD 0

/-- Steps 2 to 5 of R16 for a resolved access of port `p`. -/
def State.accessAt (s : State) (p : PortId) (op : MemoryOp) (place : Place) : State :=
  if op.writes && s.runHeld (.port p) place.addrs then s.holdArray p .runHold []
  else if op.writes && s.watchHeld (.port p) place.addrs then
    (s.blockAll (.port p) place.addrs (firstAddress place.addrs) op.size).holdArray p .watchHold []
  else
    let x := op.perform s.array place.addrs
    let t := ({ s with array := x.array } : State).storeMotion p place.motion
    (t.matchAll ⟨.port p, place.addrs, firstAddress place.addrs, op.size, x.write⟩).holdArray p x.code x.data

/-- Steps 1 to 5 of R16 for port `p`'s request: the state in which its grant holds the array. -/
def beginAccess (p : PortId) (r : MemoryRequest) (s : State) : Host.Outcome State Fault Refusal :=
  match s.resolve p r with
  | .error code =>
    .next ((if code = .nullAnchor then s.reportNullRef p r else s).holdArray p code [])
  | .ok place => if inArray place.addrs then .next (s.accessAt p r.op place) else .fault .outsideArray

/-! ### A segment at its grant (R125) -/

/-- Steps 1 to 4 of R125 for channel `k`: the state in which its grant holds the array. -/
def State.segmentAt (s : State) (k : ChannelId) : State :=
  let e := s.channel k
  let source := e.segmentSource
  let destination := e.segmentDestination
  if s.runHeld (.channel k) destination then { s with grant := some (.segment k none) }
  else if s.watchHeld (.channel k) destination then
    { s.blockAll (.channel k) destination (firstAddress destination) e.segmentSize with
      grant := some (.segment k none) }
  else
    let t : State := { s with array := s.array.writeAll destination (s.array.readAll source) }
    let u := t.matchAll ⟨.channel k, source, firstAddress source, e.segmentSize, false⟩
    { u.matchAll ⟨.channel k, destination, firstAddress destination, e.segmentSize, true⟩ with
      grant := some (.segment k (some e.segmentSize)) }

/-- The grant of a segment of channel `k`; the engine pointer names the channel after it (R124). -/
def beginSegment (k : ChannelId) (s : State) : Host.Outcome State Fault Refusal :=
  let e := s.channel k
  if inArray e.segmentSource && inArray e.segmentDestination then
    .next (State.segmentAt { s with enginePointer := k + 1 } k)
  else .fault .outsideArray

/-! ### The access completion -/

/-- The access completion of the grant that holds the array: the port's request completes (R18), or the segment
completes, with the run end it may make (R126, R130). What waited for the completion comes after it: in
`State.settle`, or at the command that names it. That the run-end notice is posted before the requests deferred to
this completion, a TAKE_NOTICE among them, is the model's choice unless `post` is afterNext, and
DEFERRED_REQUEST_APPLY then gives the other order of R110 (DESIGN CHOICE, log entry 23). -/
def State.completeAccess (post : RunEndPost) (s : State) : State :=
  match s.grant with
  | none => s
  | some (.access p code data) => ({ s with grant := none } : State).complete p code data
  | some (.segment k moved) => ({ s with grant := none } : State).segmentCompletes k moved post

/-- An outcome carried on from a next state. -/
def andThen (x : Host.Outcome State Fault Refusal) (f : State → State) : Host.Outcome State Fault Refusal :=
  match x with
  | .next s => .next (f s)
  | .fault r => .fault r
  | .refused r => .refused r

/-! ### The meanings -/

/-- The port and request that a MEMORY_GRANT serves: the arbiter's choice, when it is a port (R6). -/
def State.memoryChoice (s : State) : Option (PortId × MemoryRequest) :=
  match s.arbiterChoice with
  | none => none
  | some r =>
    if h : r.val < 4 then
      match (s.port ⟨r.val, h⟩).inFlight with
      | some (.waiting m) => some (⟨r.val, h⟩, m)
      | _ => none
    else none

/-- The beginning of a MEMORY_GRANT, then a run-end notice still to be posted (R111), and what follows; nothing is
granted where the arbiter would not grant a port. -/
def grantMemory (after : State → State) (s : State) : Host.Outcome State Fault Refusal :=
  match s.memoryChoice with
  | none => .next s.postLate
  | some (p, r) => andThen (beginAccess p r (s.advancePointer ⟨p.val, by omega⟩)) (fun t => after t.postLate)

/-- The access completion of a port's grant, where one holds the array. -/
def State.endMemory (s : State) : State :=
  match s.grant with
  | some (.access _ _ _) => s.completeAccess .atOnce
  | _ => s

/-- MEMORY_GRANT (R6, R7, R16 to R18). -/
def execMemoryGrant (span : GrantSpan) (s : State) : Host.Outcome State Fault Refusal :=
  match span with
  | .whole => grantMemory (State.completeAccess .atOnce) s.clearWay
  | .begins => grantMemory id s.clearWay
  | .ends => .next s.settle.endMemory

/-- The channel that a SEGMENT_GRANT serves: the engine's choice, when the arbiter's choice is the copy engine
(R6, R124). -/
def State.segmentChoice (s : State) : Option ChannelId :=
  match s.arbiterChoice with
  | none => none
  | some r => if r.val < 4 then none else s.engineChoice

/-- The beginning of a SEGMENT_GRANT, then a run-end notice still to be posted (R111), and what follows; nothing is
granted where the arbiter would not grant the copy engine. -/
def grantSegment (after : State → State) (s : State) : Host.Outcome State Fault Refusal :=
  match s.segmentChoice with
  | none => .next s.postLate
  | some k => andThen (beginSegment k (s.advancePointer 4)) (fun t => after t.postLate)

/-- The completion of a segment's grant, where one holds the array. -/
def State.endSegment (post : RunEndPost) (s : State) : State :=
  match s.grant with
  | some (.segment _ _) => s.completeAccess post
  | _ => s

/-- SEGMENT_GRANT (R6, R7, R124 to R126, R130). -/
def execSegmentGrant (span : SegmentSpan) (s : State) : Host.Outcome State Fault Refusal :=
  match span with
  | .whole post => grantSegment (State.completeAccess post) s.clearWay
  | .begins => grantSegment id s.clearWay
  | .ends post => .next (s.settle.endSegment post)

/-- DEFERRED_REQUEST_APPLY (R7, R55, R160): the access completion of the grant that holds the array, if one still does,
and at it port `p`'s deferred request, after the requests and ticks that came before it. A run-end notice still to be
posted stays so (R110, log entry 23), and an abort that waited for the segment goes on waiting (R110, R111, log entry
27). -/
def execDeferredRequestApply (p : PortId) (s : State) : Host.Outcome State Fault Refusal :=
  match (s.port p).inFlight with
  | some (.deferred _) => .next ((s.finishLapses.completeAccess .atOnce).applyDeferredUpTo p)
  | _ => .next s.settle

/-- ABORT_AFTER_SEGMENT (R132): the completion of the segment that holds the array, if one still does, and at it port
`p`'s abort, before everything else that waited for the completion. A run-end notice still to be posted stays so (R111,
log entries 23 and 27). -/
def execAbortAfterSegment (p : PortId) (s : State) : Host.Outcome State Fault Refusal :=
  match (s.port p).inFlight with
  | some (.afterSegment _) => .next ((s.finishLapses.completeAccess .atOnce).applyDeferredFirst p)
  | _ => .next s.settle

/-- TICK (R83, R86): counted at the watch table, or waiting while a grant holds the array; a HALTED time base raises
none. -/
def execTick (s : State) : Host.Outcome State Fault Refusal :=
  let t := s.settle
  .next (if !s.ticking then t
    else if t.grant.isSome then t.enqueue .tick else t.countTick)

/-- LAPSE (R86, R87): the next lapse due of the latest tick, in ascending watch number. -/
def execLapse (s : State) : Host.Outcome State Fault Refusal :=
  .next (if s.lapsesDue = [] then s.settle else s.nextLapse)

end Sys2Proof.Machine
end

