-- ==== Sys2Proof/Machine/Device.lean ====
section
/-! DEFINITION. Power and device reset: POWER_ON_RESET, FILL_END, NRESET_ASSERTION, NRESET_RELEASE, SUPPLY_LOSS
(chapter 1, R151, R164). -/

namespace Sys2Proof.Machine

/-- A port at power-on: its power-on values, but a frame whose chip select stays asserted is dark (log entry 25). -/
def Port.powerOn (q : Port) : Port := { Port.default with frame := q.frame.map (fun _ => OpenFrame.dark) }

/-- The part right after its supply has risen (R2): every block at its power-on values and the fill begun. The level of
nRESET is the board's, each chip select is its master's, and the queue of commands is the sender's. -/
def State.powerOn (s : State) : State :=
  { State.reset with nReset := s.nReset, ports := tableMap Port.powerOn s.ports, pending := s.pending }

/-- POWER_ON_RESET (R2, R8, R23, R57, R83, R114, R116, R124, R151). -/
def execPowerOnReset (s : State) : Host.Outcome State Fault Refusal := .next s.powerOn

/-- FILL_END (R2, R4, R83): a fill that is under way ends. -/
def execFillEnd (s : State) : Host.Outcome State Fault Refusal :=
  .next (if s.supply && s.filling then
    { s with fill := .filled, filling := false, array := [], ticking := !s.nReset }
  else s)

/-- A port at nRESET assertion (R114, R151, R164): its power-on values, with a frame in progress abandoned. -/
def Port.deviceReset (q : Port) : Port :=
  { Port.default with
    frame := q.frame.map (fun f => { f with abandoned := true })
    shifted := q.shifted }

/-- The device reset at nRESET assertion (R3, R8, R20, R41, R91, R114, R136, R151, R164): the array and the fill state
stand, a fill under way stops, and every other block takes its reset values. A grant that holds the array has performed
its access whole already (R20). -/
def State.deviceReset (s : State) : State :=
  { State.reset with
    supply := s.supply
    nReset := s.nReset
    fill := s.fill
    filling := false
    array := s.array
    ports := tableMap Port.deviceReset s.ports
    pending := s.pending }

/-- NRESET_ASSERTION (R3, R20, R164). -/
def execNresetAssertion (s : State) : Host.Outcome State Fault Refusal :=
  .next (if s.nReset then s
    else if s.supply then { s.deviceReset with nReset := true }
    else { s with nReset := true })

/-- NRESET_RELEASE (R3, R4, R83): ticking resumes when the array is filled, else the fill starts again. -/
def execNresetRelease (s : State) : Host.Outcome State Fault Refusal :=
  .next (if !s.nReset then s
    else if !s.supply then { s with nReset := false }
    else if s.fill = .filled then { s with nReset := false, ticking := true }
    else { s with nReset := false, filling := true })

/-- SUPPLY_LOSS (R2): the array contents are lost and the part stops until the next rise of the supply. What the rest of
the state holds meanwhile is put at its power-on values (DESIGN CHOICE, log entry 12). -/
def execSupplyLoss (s : State) : Host.Outcome State Fault Refusal :=
  .next { s.powerOn with supply := false, filling := false }

end Sys2Proof.Machine
end

