-- ==== Sys2Proof/Machine/Dispatch.lean ====
section
/-! DEFINITION. The meaning of each command. -/

namespace Sys2Proof.Machine

def exec (i : Instr) (s : State) : Host.Outcome State Fault Refusal :=
  match i with
  | .powerOnReset => Sys2Proof.Machine.execPowerOnReset s
  | .fillEnd => Sys2Proof.Machine.execFillEnd s
  | .nresetAssertion => Sys2Proof.Machine.execNresetAssertion s
  | .nresetRelease => Sys2Proof.Machine.execNresetRelease s
  | .frameStart p => Sys2Proof.Machine.execFrameStart p s
  | .emptyFrame p => Sys2Proof.Machine.execEmptyFrame p s
  | .nop p bits => Sys2Proof.Machine.execNop p bits s
  | .unknownCode f code => Sys2Proof.Machine.execUnknownCode f code s
  | .attach f => Sys2Proof.Machine.execAttach f s
  | .detach f => Sys2Proof.Machine.execDetach f s
  | .doze f => Sys2Proof.Machine.execDoze f s
  | .setLevels f threshold wake => Sys2Proof.Machine.execSetLevels f threshold wake s
  | .clearFlags f flags => Sys2Proof.Machine.execClearFlags f flags s
  | .takeNotice f mode => Sys2Proof.Machine.execTakeNotice f mode s
  | .finishService f => Sys2Proof.Machine.execFinishService f s
  | .read f target size => Sys2Proof.Machine.execRead f target size s
  | .write f target size data => Sys2Proof.Machine.execWrite f target size data s
  | .exchange f target width expected new => Sys2Proof.Machine.execExchange f target width expected new s
  | .fetchAdd f target width addend => Sys2Proof.Machine.execFetchAdd f target width addend s
  | .memoryGrant span => Sys2Proof.Machine.execMemoryGrant span s
  | .segmentGrant span => Sys2Proof.Machine.execSegmentGrant span s
  | .abortAfterSegment p => Sys2Proof.Machine.execAbortAfterSegment p s
  | .deferredRequestApply p => Sys2Proof.Machine.execDeferredRequestApply p s
  | .tick => Sys2Proof.Machine.execTick s
  | .lapse => Sys2Proof.Machine.execLapse s
  | .setAnchor f a => Sys2Proof.Machine.execSetAnchor f a s
  | .bindCursor f cursor anchor offset => Sys2Proof.Machine.execBindCursor f cursor anchor offset s
  | .queryCursor f cursor => Sys2Proof.Machine.execQueryCursor f cursor s
  | .setWatch f w => Sys2Proof.Machine.execSetWatch f w s
  | .subscribe f watch => Sys2Proof.Machine.execSubscribe f watch s
  | .unsubscribe f watch => Sys2Proof.Machine.execUnsubscribe f watch s
  | .setChannel f c => Sys2Proof.Machine.execSetChannel f c s
  | .armChannel f channel => Sys2Proof.Machine.execArmChannel f channel s
  | .startChannel f channel => Sys2Proof.Machine.execStartChannel f channel s
  | .abortChannel f channel => Sys2Proof.Machine.execAbortChannel f channel s
  | .claim f table index => Sys2Proof.Machine.execClaim f table index s
  | .adopt f table index => Sys2Proof.Machine.execAdopt f table index s
  | .release f table index => Sys2Proof.Machine.execRelease f table index s
  | .queryEntry f table index => Sys2Proof.Machine.execQueryEntry f table index s
  | .supplyLoss => Sys2Proof.Machine.execSupplyLoss s

end Sys2Proof.Machine
end

