-- ==== Sys2Proof/Safety.lean ====
section
/-! DEFINITION. What counts as a safe state: the conditions the spec says hold at all times, one definition each, in
the terms the claims use. -/

namespace Sys2Proof.Machine

/-! ### The array and the tables -/

/-- The array is in its listed form: addresses strictly rising and inside the array, no byte 0 listed (R1). -/
abbrev State.arrayListed (s : State) : Prop := s.array.wf = true

/-- An anchor's region lies inside the array and is not empty (R22, R24). -/
abbrev Anchor.inside (e : Anchor) : Prop :=
  ∀ g ∈ e.region, 1 ≤ g.length ∧ g.base + g.length ≤ Config.arraySize

/-- Every anchor's region lies inside the array (R22). -/
abbrev State.regionsInside (s : State) : Prop := ∀ a, (s.anchor a).inside

/-- A binding lies within its anchor's bounds (R27). -/
abbrev State.bindingInside (s : State) (b : Binding) : Prop :=
  ∃ g ∈ (s.anchor b.anchor).region, b.offset ≤ g.length ∧ ((s.anchor b.anchor).ring = true → b.offset < g.length)

/-- A bound cursor's anchor is never null, and its offset lies within bounds (R27). -/
abbrev State.cursorsInside (s : State) : Prop := ∀ p c, ∀ b ∈ (s.port p).cursor c, s.bindingInside b

/-- A channel's ranges lie inside the array, and share no address (R115, R117). -/
abbrev Channel.inside (e : Channel) : Prop :=
  e.config.length ≤ Config.runLimit ∧ e.config.source + e.config.length ≤ Config.arraySize ∧
    e.config.destination + e.config.length ≤ Config.arraySize ∧
    (e.config.source + e.config.length ≤ e.config.destination ∨
      e.config.destination + e.config.length ≤ e.config.source)

/-- Every channel's ranges lie inside the array (R117). -/
abbrev State.channelsInside (s : State) : Prop := ∀ k, (s.channel k).inside

/-- A channel that is not IDLE has a run to make, and moved no more than it (R115, R118, R119, R126). -/
abbrev Channel.runSound (e : Channel) : Prop :=
  (e.phase ≠ .idle → 0 < e.config.length) ∧ e.copied ≤ e.config.length ∧
    (e.inRun = true → e.copied < e.config.length)

/-- The segment that holds the array, performed or refused, is the next one of a channel in a run (R123, R126, R130). -/
abbrev State.segmentSound (s : State) : Prop :=
  ∀ k moved, s.grant = some (.segment k moved) →
    (s.channel k).inRun = true ∧ ∀ n ∈ moved, n = (s.channel k).segmentSize

/-- Runs and segments of every channel (R115, R119, R123, R126). -/
abbrev State.runsSound (s : State) : Prop := (∀ k, (s.channel k).runSound) ∧ s.segmentSound

/-- Runs left never exceed the budget unless it is UNLIMITED, and are 0 only on an IDLE channel (R128). -/
abbrev Channel.budgetSound (e : Channel) : Prop :=
  match e.runsLeft with
  | .count n => (e.config.budget ≠ 0 → n ≤ e.config.budget) ∧ (n = 0 → e.phase = .idle) ∧
      (e.config.budget = 0 → n = 0)
  | .unlimited => e.config.budget = 0

/-- Runs left of every channel (R128). -/
abbrev State.budgetsSound (s : State) : Prop := ∀ k, (s.channel k).budgetSound

/-- The quiet state of a watch agrees with its configuration (R84). A RUNNING countdown is from 1 to the quiet limit,
but for a lapse of the latest tick that is still to be made. -/
abbrev State.quietSound (s : State) (w : WatchId) : Prop :=
  ((s.watch w).quiet ≠ .stopped ↔ (s.watch w).config.enabled = true ∧ (s.watch w).config.hasQuiet = true) ∧
  ((s.watch w).quiet = .running →
    (s.watch w).countdown ≤ (s.watch w).config.quietLimit ∧ ((s.watch w).countdown = 0 → w ∈ s.lapsesDue)) ∧
  ((s.watch w).quiet = .lapsed → (s.watch w).countdown = 0) ∧
  1 ≤ (s.watch w).config.quietLimit ∧
  (w ∈ s.lapsesDue → (s.watch w).config.enabled = true ∧ (s.watch w).config.hasQuiet = true)

/-- The quiet states of every watch (R84). -/
abbrev State.quietsSound (s : State) : Prop := ∀ w, s.quietSound w

/-! ### Ports -/

/-- A queue holds at most 24 records (R94). -/
abbrev State.queuesBounded (s : State) : Prop := ∀ p, (s.port p).queue.length ≤ Config.queueCapacity

/-- Two records fold: their source coalesces and they have the same source and kinds (R97). -/
abbrev Record.folds (a b : Record) : Prop := a.notice.source.coalesces = true ∧ b.alike a.notice = true

/-- No two records of one queue have the same WATCH or ANCHOR source and the same kind set (R97). -/
abbrev Port.folded (q : Port) : Prop := q.queue.Pairwise (fun a b => ¬ a.folds b)

/-- The queues of every port (R97). -/
abbrev State.queuesFolded (s : State) : Prop := ∀ p, (s.port p).folded

/-- nATTN is asserted exactly when the attention condition holds (R108). -/
abbrev Port.attentionExact (q : Port) : Prop :=
  q.attention = true ↔ q.mode = .attached ∧ ∃ r ∈ q.queue, q.threshold ≤ r.notice.priority

/-- nATTN of every port (R108). -/
abbrev State.attentionsExact (s : State) : Prop := ∀ p, (s.port p).attentionExact

/-- A DOZING port's queue holds no record at or above its wake level (R146), and it has no request in flight. -/
abbrev Port.dozeSound (q : Port) : Prop :=
  q.mode = .dozing → (∀ r ∈ q.queue, r.notice.priority < q.wake) ∧ q.inFlight = none

/-- The doze of every port (R146). -/
abbrev State.dozesSound (s : State) : Prop := ∀ p, (s.port p).dozeSound

/-- Levels and stacks in their ranges (R106, R107, R148). -/
abbrev Port.levelsSound (q : Port) : Prop :=
  1 ≤ q.threshold ∧ q.threshold ≤ 8 ∧ 1 ≤ q.wake ∧ q.wake ≤ 7 ∧ q.stack.length ≤ Config.stackDepth ∧
    ∀ t ∈ q.stack, 1 ≤ t ∧ t ≤ 8

/-- The levels of every port (R106, R107). -/
abbrev State.levelsInRange (s : State) : Prop := ∀ p, (s.port p).levelsSound

/-- What a DETACHED port keeps: nothing queued, first levels, no bound cursor, and no request in flight but an ATTACH
(R140). -/
abbrev Port.cleanDetached (q : Port) : Prop :=
  q.mode = .detached →
    q.queue = [] ∧ q.nextSeq = 0 ∧ q.overrun = false ∧ q.stack = [] ∧ q.threshold = 1 ∧ q.wake = 1 ∧
      (∀ c, q.cursor c = none) ∧ (q.inFlight = none ∨ q.inFlight = some (.deferred .attach))

/-- No entry is OWNED by a DETACHED port, and none is a subscriber (R53, R64, R140). -/
abbrev State.detachedClean (s : State) : Prop :=
  ∀ p, (s.port p).cleanDetached ∧
    ((s.port p).mode = .detached →
      (∀ a, (s.anchor a).owner ≠ .owned p) ∧ (∀ w, (s.watch w).owner ≠ .owned p) ∧
        (∀ k, (s.channel k).owner ≠ .owned p) ∧ ∀ w, (s.watch w).subscribers.getLsbD p.val = false)

/-! ### The device -/

/-- The time base ticks only while the part is ready (R83, R91). -/
abbrev State.ticksWhenReady (s : State) : Prop := s.ticking = true → s.ready = true

/-- While READY is clear every port is as reset leaves it, nothing holds the array, nothing is due, and no frame in
progress can take a request (R4, R163). -/
abbrev State.quietWhenNotReady (s : State) : Prop :=
  s.ready = false →
    s.grant = none ∧ s.lapsesDue = [] ∧ s.lateNotice = none ∧ s.deferredOrder = [] ∧
      ∀ p, (s.port p).mode = .detached ∧ (s.port p).slot = Slot.none ∧ (s.port p).inFlight = none ∧
        (s.port p).busyRefused = false ∧ (s.port p).frameFault = false ∧
        ∀ f ∈ (s.port p).frame, f.ready = false ∨ f.abandoned = true

/-- A waiting ABSOLUTE request fits the array (R9, R10). -/
abbrev State.waitingFits (s : State) : Prop :=
  ∀ p t op, (s.port p).inFlight = some (.waiting ⟨t, op⟩) → t.fitsAtTaking op.size = true

/-- Everything an access could reach lies inside the array. -/
abbrev State.inBounds (s : State) : Prop :=
  s.regionsInside ∧ s.cursorsInside ∧ s.channelsInside ∧ s.waitingFits

/-- A grant of a port's access goes with that port's request, and only with it (R5, R7). -/
abbrev State.grantSound (s : State) : Prop :=
  ∀ p, (s.port p).inFlight = some .granted ↔ ∃ code data, s.grant = some (.access p code data)

/-- The port's request waits for an access completion (R160). -/
def Port.waitsForCompletion (q : Port) : Bool :=
  match q.inFlight with
  | some (.deferred _) => true
  | some (.afterSegment _) => true
  | some (.waiting _) => false
  | some .granted => false
  | none => false

/-- The order of what waits for the access completion names each port whose request waits for it, once (R55, R132,
R160), and no run-end notice is still to be posted while a grant holds the array (R111). -/
abbrev State.waitsSound (s : State) : Prop :=
  (∀ p, .request p ∈ s.deferredOrder ↔ (s.port p).waitsForCompletion = true) ∧
    (∀ p, s.deferredOrder.count (.request p) ≤ 1) ∧ (s.grant ≠ none → s.lateNotice = none)

/-! ### When a command finds nothing in its way -/

/-- Nothing is due before the next command: no lapse of the latest tick, no run-end notice still to be posted, and no
request and no tick that waited for an access completion that has come. -/
abbrev State.settled (s : State) : Prop :=
  s.lapsesDue = [] ∧ s.lateNotice = none ∧
    (s.grant = none → s.deferredOrder = [])

/-- A frame is open on port `p` whose end reaches the checks of R156 after the first: it started while READY was set,
no nRESET assertion abandoned it, and its start has woken the port (R147, R163, R164). -/
abbrev State.frameOpen (s : State) (p : PortId) : Prop :=
  s.supply = true ∧ s.settled ∧ (s.port p).mode ≠ .dozing ∧
    ∃ o ∈ (s.port p).frame, o.ready = true ∧ o.abandoned = false

/-- Port `p` is ATTACHED with such a frame open, and has no request in flight: a request frame of the right length is
taken (R156, check 8). -/
abbrev State.takes (s : State) (p : PortId) : Prop :=
  s.frameOpen p ∧ (s.port p).mode = .attached ∧ (s.port p).inFlight = none

/-- Port `p`'s request is taken and applied at its taking: no grant holds the array (R160). -/
abbrev State.serves (s : State) (p : PortId) : Prop := s.takes p ∧ s.grant = none

/-- The frame over, and nothing else changed (R153). -/
def State.frameOver (s : State) (p : PortId) (bits : Nat) : State :=
  s.modPort p (fun q => { q with frame := none, shifted := q.frame.map (fun o => ⟨o.header, bits⟩) })

/-- The frame over and its request answered: the slot shows the tag, the outcome and the data, and the port has no
request in flight (R153, R161). -/
def State.answered (s : State) (f : Frame) (code : ResultCode) (data : List Byte) : State :=
  (s.frameOver f.port f.bits).modPort f.port (fun q => { q with slot := ⟨f.tag, code, data⟩, inFlight := none })

end Sys2Proof.Machine
end

