-- ==== Sys2Proof/WellFormed.lean ====
section
/-! DEFINITION. Which command terms stand for an event of the part. -/

namespace Sys2Proof

/-- A NOP frame has at least one bit: a frame of none is EMPTY_FRAME (R156, check 2). -/
def nopWellFormed (bits : Nat) : Bool := bits != 0

/-- A request frame has at least its 8 code bits: with fewer it has no code, and with none it is EMPTY_FRAME. -/
def frameWellFormed (f : Frame) : Bool := 8 ≤ f.bits

/-- UNKNOWN_CODE carries a code that Table 9-2 does not list (R156, check 6). -/
def unknownCodeWellFormed (code : Byte) : Bool := !isKnownCode code

/-- A WRITE frame of the length its size byte asks for carries that many data bytes (R157). -/
def writeWellFormed (f : Frame) (size : Byte) (data : List Byte) : Bool :=
  !frameFits 0x11 size f.bits || data.length == writeDataLength size

/-- The command term stands for an event of the part. -/
def Instr.wellFormed : Instr → Bool
  | .powerOnReset => true
  | .fillEnd => true
  | .nresetAssertion => true
  | .nresetRelease => true
  | .frameStart _ => true
  | .emptyFrame _ => true
  | .nop _ bits => nopWellFormed bits
  | .unknownCode f code => frameWellFormed f && unknownCodeWellFormed code
  | .attach f => frameWellFormed f
  | .detach f => frameWellFormed f
  | .doze f => frameWellFormed f
  | .setLevels f _ _ => frameWellFormed f
  | .clearFlags f _ => frameWellFormed f
  | .takeNotice f _ => frameWellFormed f
  | .finishService f => frameWellFormed f
  | .read f _ _ => frameWellFormed f
  | .write f _ size data => frameWellFormed f && writeWellFormed f size data
  | .exchange f _ _ _ _ => frameWellFormed f
  | .fetchAdd f _ _ _ => frameWellFormed f
  | .memoryGrant _ => true
  | .segmentGrant _ => true
  | .abortAfterSegment _ => true
  | .deferredRequestApply _ => true
  | .tick => true
  | .lapse => true
  | .setAnchor f _ => frameWellFormed f
  | .bindCursor f _ _ _ => frameWellFormed f
  | .queryCursor f _ => frameWellFormed f
  | .setWatch f _ => frameWellFormed f
  | .subscribe f _ => frameWellFormed f
  | .unsubscribe f _ => frameWellFormed f
  | .setChannel f _ => frameWellFormed f
  | .armChannel f _ => frameWellFormed f
  | .startChannel f _ => frameWellFormed f
  | .abortChannel f _ => frameWellFormed f
  | .claim f _ _ => frameWellFormed f
  | .adopt f _ _ => frameWellFormed f
  | .release f _ _ => frameWellFormed f
  | .queryEntry f _ _ => frameWellFormed f
  | .supplyLoss => true

end Sys2Proof
end

