-- ==== Sys2Proof/Certificates/Slice0/Obligations.lean ====
section
/-! DEFINITION. The statements for the provers, in the order of OBLIGATIONS.json. Each docstring names the rules it is
about, and the log entry of a choice of the model's that it rests on. Every statement about a frame end speaks of
`shifted`, the model's own record of what SDO carried (log entry 14). -/

open Sys2Proof Sys2Proof.Machine

/-! ### Words of the statements -/

namespace Sys2Proof.Claims

/-- Whether a port's queue holds a record at or above a level. -/
def reaches (queue : List Record) (level : Nat) : Bool := queue.any (fun r => level ≤ r.notice.priority)

/-- The unsigned value of `n` bytes from an address on, the first least significant (R15, R59). -/
def valueAt (m : Memory) (address n : Nat) : Nat := leValue (m.readAll (List.range' address n))

/-- The bits of a byte as they travel, most significant first (R152). -/
def msbFirst (b : Byte) : List Bool := [b.getLsbD 7, b.getLsbD 6, b.getLsbD 5, b.getLsbD 4, b.getLsbD 3, b.getLsbD 2,
  b.getLsbD 1, b.getLsbD 0]

/-- The state with the frame over and the request PENDING in flight (R160). -/
def inFlight (s : State) (f : Frame) (r : InFlight) : State :=
  (s.frameOver f.port f.bits).modPort f.port (fun q => { q with slot := ⟨f.tag, .pending, []⟩, inFlight := some r })

/-- A port after its own port reset, in the port state the request leaves (R143). -/
def resetTo (m : PortMode) (q : Port) : Port :=
  { q with
    mode := m
    queue := []
    nextSeq := 0
    overrun := false
    stack := []
    threshold := 1
    wake := 1
    busyRefused := false
    frameFault := false
    attention := false
    cursors := Vector.replicate 4 none }

/-- The owner field after a port reset of `p` (R51). -/
def orphan (p : PortId) (o : Owner) : Owner := if o = .owned p then .orphaned else o

/-- A set of ports without port `p`. -/
def without (p : PortId) (set : BitVec 4) : BitVec 4 := set &&& ~~~(1#4 <<< p.val)

/-- The three tables after a port reset of `p` (R23, R57, R116). -/
def orphanTables (p : PortId) (s : State) : State :=
  { s with
    anchors := tableMap (fun e => { e with owner := orphan p e.owner }) s.anchors
    watches := tableMap (fun e =>
      { e with owner := orphan p e.owner, subscribers := without p e.subscribers }) s.watches
    channels := tableMap (fun e =>
      { e with
        owner := orphan p e.owner
        config := { e.config with report := without p e.config.report } }) s.channels }

/-- The tables after an ATTACH of `p` from DETACHED: `p` is in no subscriber set and no report set (R140). -/
def leftSets (p : PortId) (s : State) : State :=
  { s with
    watches := tableMap (fun e => { e with subscribers := without p e.subscribers }) s.watches
    channels := tableMap (fun e => { e with config := { e.config with report := without p e.config.report } })
      s.channels }

/-- The PRESENCE notice of port `p` with one kind (R144). -/
def presence (p : PortId) (kind : Byte) : Notice := ⟨.presence p, kind, 6, none, none, none, none, none⟩

/-- The table byte and the index byte that name an entry (Table 9-2). -/
def tableByte : Entry → Byte
  | .anchor _ => 0
  | .watch _ => 1
  | .channel _ => 2

def indexByte : Entry → Byte
  | .anchor a => BitVec.ofNat 8 a.val
  | .watch w => BitVec.ofNat 8 w.val
  | .channel k => BitVec.ofNat 8 k.val

/-- A table and an index that name no entry (R43). -/
abbrev namesNone (table index : Byte) : Prop :=
  3 ≤ table.toNat ∨ table.toNat = 0 ∧ 32 ≤ index.toNat ∨ table.toNat = 1 ∧ 16 ≤ index.toNat ∨
    table.toNat = 2 ∧ 4 ≤ index.toNat

/-- A cursor bound to the anchor is unbound, any other stands (R26, R47). -/
def unbound (a : AnchorId) (c : Option Binding) : Option Binding := c.filter (fun b => b.anchor != a)

/-- A cursor bound to the anchor is set back to offset 0, any other stands (R25). -/
def rewound (a : AnchorId) (c : Option Binding) : Option Binding := c.map (fun b => if b.anchor = a then ⟨a, 0⟩ else b)

/-- The access byte of SET_ANCHOR (Table 9-2). -/
def accessOf (b : Byte) : Access := if b = 1 then .ownerWrites else .shared

/-- A count that rises by 1 unless it is already at its limit. -/
def countUp (limit n : Nat) : Nat := if n < limit then n + 1 else n

/-- The request, its frame and its code, of a command that is a table, port or ownership request frame. -/
def requestOf : Instr → Option (Frame × Byte × Request)
  | .attach f => some (f, 0x01, .attach)
  | .detach f => some (f, 0x02, .detach)
  | .doze f => some (f, 0x03, .doze)
  | .setLevels f threshold wake => some (f, 0x04, .setLevels threshold wake)
  | .clearFlags f flags => some (f, 0x05, .clearFlags flags)
  | .takeNotice f mode => some (f, 0x06, .takeNotice mode)
  | .finishService f => some (f, 0x07, .finishService)
  | .setAnchor f a => some (f, 0x20, .setAnchor a)
  | .bindCursor f cursor anchor offset => some (f, 0x21, .bindCursor cursor anchor offset)
  | .queryCursor f cursor => some (f, 0x22, .queryCursor cursor)
  | .setWatch f w => some (f, 0x30, .setWatch w)
  | .subscribe f watch => some (f, 0x31, .subscribe watch)
  | .unsubscribe f watch => some (f, 0x32, .unsubscribe watch)
  | .setChannel f c => some (f, 0x40, .setChannel c)
  | .armChannel f channel => some (f, 0x41, .armChannel channel)
  | .startChannel f channel => some (f, 0x42, .startChannel channel)
  | .abortChannel f channel => some (f, 0x43, .abortChannel channel)
  | .claim f table index => some (f, 0x50, .claim table index)
  | .adopt f table index => some (f, 0x51, .adopt table index)
  | .release f table index => some (f, 0x52, .release table index)
  | .queryEntry f table index => some (f, 0x53, .queryEntry table index)
  | _ => none

/-- An event that the arbiter admits now: port `p`'s waiting request, resolved to its place inside the array, with
nothing due (R6, R16). -/
structure Granted (s : State) (p : PortId) (r : MemoryRequest) (place : Place) : Prop where
  settled : s.settled
  noGrant : s.grant = none
  chosen : s.memoryChoice = some (p, r)
  resolved : s.resolve p r = .ok place
  inside : inArray place.addrs = true

/-- The same for a request that its resolution refuses (R30). -/
structure Unresolved (s : State) (p : PortId) (r : MemoryRequest) (code : ResultCode) : Prop where
  settled : s.settled
  noGrant : s.grant = none
  chosen : s.memoryChoice = some (p, r)
  refused : s.resolve p r = .error code

/-- The same for the segment that channel `k` moves next (R124, R125). -/
structure SegmentGranted (s : State) (k : ChannelId) : Prop where
  settled : s.settled
  noGrant : s.grant = none
  chosen : s.segmentChoice = some k
  source : inArray (s.channel k).segmentSource = true
  destination : inArray (s.channel k).segmentDestination = true

/-- The pointer as the grant to port `p` leaves it (R6). -/
def afterPort (s : State) (p : PortId) : State := { s with pointer := ⟨p.val + 1, by omega⟩ }

/-- The kind set of a watch for a presentation, `m` being the array after the access: ALTER 1, READ 2, COMPARE 4
(R71, R75). -/
def kindSet (pr : Presentation) (e : Watch) (m : Memory) : Byte :=
  (if pr.write = true ∧ e.config.kinds.getLsbD 0 = true then 1 else 0) |||
  (if pr.write = false ∧ e.config.kinds.getLsbD 1 = true then 2 else 0) |||
  (if pr.write = true ∧ e.config.kinds.getLsbD 2 = true ∧
      (∃ a ∈ pr.addrs, e.config.start ≤ a ∧ a < e.config.start + e.config.width.bytes) ∧
      e.config.condition.holds (valueAt m e.config.start e.config.width.bytes) e.config.reference = true ∧
      (e.config.mode = .level ∨ e.lastOutcome = false) then 4 else 0)

/-- An access touches a watch range: some byte of it lies in the range, which wraps when start exceeds end (R58). -/
abbrev touchesWatch (c : WatchConfig) (addrs : List Nat) : Prop :=
  ∃ a ∈ addrs, (c.start ≤ c.stop ∧ c.start ≤ a ∧ a ≤ c.stop) ∨ (c.stop < c.start ∧ (c.start ≤ a ∨ a ≤ c.stop))

/-- The watch makes an indication for the presentation (R70, R72). -/
abbrev indicates (pr : Presentation) (e : Watch) (m : Memory) : Prop :=
  e.config.enabled = true ∧ touchesWatch e.config pr.addrs ∧ kindSet pr e m ≠ 0

/-- The notice of that indication (R73). -/
def watchNotice (w : WatchId) (pr : Presentation) (e : Watch) (m : Memory) : Notice where
  source := .watch w
  kinds := kindSet pr e m
  priority := e.config.priority
  actor := some pr.actor
  address := some pr.address
  size := some pr.size
  value := if kindSet pr e m &&& 4 ≠ 0 then
    some (e.config.width, valueAt m e.config.start e.config.width.bytes) else none
  counts := none

/-- Port `q` receives the notices of the watch for this actor: it subscribes, and is not left out as the writer
(R73). -/
abbrev hears (q : PortId) (e : Watch) (actor : Actor) : Prop :=
  e.subscribers.getLsbD q.val = true ∧ ¬ (e.config.excludeWriter = true ∧ actor = .port q)

/-- The notice of a run end or an abort of a channel (R129). -/
def runNotice (k : ChannelId) (kinds : Byte) (priority copied collapsed : Nat) (left : Runs) : Notice :=
  ⟨.channel k, kinds, priority, none, none, none, none, some ⟨copied, collapsed, left⟩⟩

/-- A segment's completion makes the state `u` and the notice `n` for the ports of `set`: posted at once, or kept to be
posted later where no other notice is kept (R111). -/
abbrev completesWith (s : State) (k : ChannelId) (moved : Option Nat) (u : State) (set : BitVec 4) (n : Notice) : Prop :=
  s.segmentCompletes k moved .atOnce = u.postTo set n ∧
    (s.lateNotice = none → s.segmentCompletes k moved .afterNext = { u with lateNotice := some ⟨set, n⟩ })

/-- Port `p`'s request applied, with its outcome and data in the slot (R160, R161). -/
def applied (p : PortId) (r : Request) (s : State) : State :=
  (applyRequest p r s).state.complete p (applyRequest p r s).code (applyRequest p r s).data

/-- One tick counted: every enabled RUNNING countdown is one less, and the watches whose countdown went from 1 to 0 have
their lapse due, in ascending number (R86). -/
def ticked (s : State) : State :=
  { s with
    watches := tableMap (fun e =>
      if e.config.enabled = true ∧ e.quiet = .running then { e with countdown := e.countdown - 1 } else e) s.watches
    lapsesDue := (List.finRange 16).filter (fun w =>
      (s.watch w).config.enabled && (s.watch w).quiet == .running && (s.watch w).countdown == 1)
    tickTriggered := 0 }

/-- Collapsed after a latched trigger is discarded (R122). -/
def discarded (e : Channel) : Nat := if e.phase = .runningLatched then countUp 255 e.collapsed else e.collapsed

/-- Runs left after a run that counts (R128, R130). -/
def spent : Runs → Runs
  | .count n => .count (n - 1)
  | .unlimited => .unlimited

end Sys2Proof.Claims

open Sys2Proof.Claims

/-! ### Steps and frames -/

/-- A step runs the command at the front of the queue on the state with the queue's rest; on an empty queue the part
idles. The queue is the model's (log entry 1). -/
def Obligations.StepRunsFrontCommand : Prop :=
  (∀ (c : Instr) (rest : List Instr) (s : State),
    step { s with pending := c :: rest } = exec c { s with pending := rest }) ∧
  ∀ s : State, s.pending = [] → step s = .next s

/-- No command changes the queue of commands (the queue is the model's, log entry 1), and only a grant, the fill and
the loss of supply change array bytes: no other command changes any (R1, R3). -/
def Obligations.CommandsLeaveQueueAndArray : Prop :=
  (∀ (c : Instr) (s t : State), exec c s = .next t → t.pending = s.pending) ∧
  ∀ (c : Instr) (s t : State), exec c s = .next t → c ≠ .powerOnReset → c ≠ .fillEnd → c ≠ .supplyLoss →
    (∀ span, c ≠ .memoryGrant span) → (∀ span, c ≠ .segmentGrant span) →
      ∀ a, t.array.read a = s.array.read a

/-- The bytes of a request frame decode to the command they were written from, with every parameter at every value its
bytes carry, and the frame has one length; so do its bits as they travel on SDI, most significant first (R152, R157,
R165, Table 9-2). -/
def Obligations.FrameDecodesToItsCommand : Prop :=
  ∀ (i : Instr) (f : Frame) (code : Byte) (params : List Byte),
    requestBytes i = some (f, code, params) → i.wellFormed = true →
    frameFits code (byteAt (code :: f.tag :: params) 6) f.bits = true →
      f.bits = 8 * (code :: f.tag :: params).length ∧
      decodeFrame f.port f.bits (code :: f.tag :: params) = i ∧
      decodeBits f.port ((code :: f.tag :: params).flatMap msbFirst) = i

/-- Frames written out from Tables 9-2 and 9-3 (a WRITE of 2 bytes at ABSOLUTE 4000, an EXCHANGE through cursor C1
with POST_ADVANCE, a SET_ANCHOR with base 8192 and length 40, a SET_CHANNEL, a CLAIM, a NOP and an unknown code)
decode to their commands; and the result data of TAKE_NOTICE for each family of records has the fields present, with
the contents byte that says which (R92, R103, R157, Table 9-5); that bit 5 of a source byte reads 0 is the model's
choice (log entry 8). -/
def Obligations.LayoutsOfTheTables : Prop :=
  (decodeFrame 1 72 [0x11, 7, 0, 0xA0, 0x0F, 0, 2, 0xAA, 0xBB] = .write ⟨1, 72, 7⟩ ⟨0, 0xA0, 0x0F, 0⟩ 2 [0xAA, 0xBB] ∧
   decodeFrame 2 120 [0x12, 9, 2, 1, 1, 0, 4, 1, 2, 3, 4, 5, 6, 7, 8] =
     .exchange ⟨2, 120, 9⟩ ⟨2, 1, 1, 0⟩ 4 0x04030201 0x08070605 ∧
   decodeFrame 0 72 [0x20, 3, 5, 0x00, 0x20, 0x28, 0x00, 1, 1] = .setAnchor ⟨0, 72, 3⟩ ⟨5, 8192, 40, 1, 1⟩ ∧
   decodeFrame 3 104 [0x40, 1, 2, 0xE8, 0x03, 0xD0, 0x07, 0x28, 0, 1, 2, 3, 1] =
     .setChannel ⟨3, 104, 1⟩ ⟨2, 1000, 2000, 40, 1, 2, 3, 1⟩ ∧
   decodeFrame 0 32 [0x50, 4, 2, 1] = .claim ⟨0, 32, 4⟩ 2 1 ∧
   decodeFrame 1 48 [0x00, 1, 2, 3, 4, 5] = .nop 1 48 ∧
   decodeFrame 1 24 [0x99, 5, 6] = .unknownCode ⟨1, 24, 5⟩ 0x99) ∧
  ∀ (seq repeats priority address size value : Nat) (kinds : Byte) (p : PortId) (k : ChannelId) (w : WatchId)
    (a : AnchorId),
    Record.bytes ⟨seq, repeats, ⟨.watch w, kinds, priority, some (.port p), some address, some size, none, none⟩⟩ =
      leBytes 2 seq ++ [BitVec.ofNat 8 w.val, kinds, BitVec.ofNat 8 priority, BitVec.ofNat 8 repeats, 0x07,
        BitVec.ofNat 8 p.val] ++ leBytes 2 address ++ [BitVec.ofNat 8 size] ∧
    Record.bytes ⟨seq, repeats, ⟨.watch w, kinds, priority, some (.channel k), some address, some size,
        some (.four, value), none⟩⟩ =
      leBytes 2 seq ++ [BitVec.ofNat 8 w.val, kinds, BitVec.ofNat 8 priority, BitVec.ofNat 8 repeats, 0x1F,
        BitVec.ofNat 8 (4 + k.val)] ++ leBytes 2 address ++ [BitVec.ofNat 8 size] ++ leBytes 4 value ∧
    Record.bytes ⟨seq, repeats, ⟨.watch w, 0x08, priority, none, none, none, none, none⟩⟩ =
      leBytes 2 seq ++ [BitVec.ofNat 8 w.val, 0x08, BitVec.ofNat 8 priority, BitVec.ofNat 8 repeats, 0x00] ∧
    Record.bytes ⟨seq, repeats, ⟨.anchor a, 0x01, priority, some (.port p), none, some size, none, none⟩⟩ =
      leBytes 2 seq ++ [BitVec.ofNat 8 (128 + a.val), 0x01, BitVec.ofNat 8 priority, BitVec.ofNat 8 repeats, 0x05,
        BitVec.ofNat 8 p.val, BitVec.ofNat 8 size] ∧
    Record.bytes ⟨seq, repeats, presence p kinds⟩ =
      leBytes 2 seq ++ [BitVec.ofNat 8 (192 + p.val), kinds, 6, BitVec.ofNat 8 repeats, 0x00] ∧
    Record.bytes ⟨seq, repeats, runNotice k kinds priority address size .unlimited⟩ =
      leBytes 2 seq ++ [BitVec.ofNat 8 (64 + k.val), kinds, BitVec.ofNat 8 priority, BitVec.ofNat 8 repeats, 0x20] ++
        leBytes 2 address ++ [BitVec.ofNat 8 size] ++ [0xFF, 0xFF]

/-- The header: STATUS, QUEUE, PRESENCE and the result slot, bit by bit, with the codes of Tables 9-1 and 9-4; and SDO,
which carries the header of the frame in progress most significant bit first and filler 0x00 after it, and is released
while no frame is in progress (R152, R153, R154). The pin's level as a function of the open frame is the model's (log
entry 14), and so is the empty header of a frame that was open across a loss or a rise of the supply, whose filler is no
claim about a part (DESIGN CHOICE, log entry 25). -/
def Obligations.HeaderShowsPortAndSlot : Prop :=
  (PortMode.code .detached = 0 ∧ PortMode.code .attached = 1 ∧ PortMode.code .dozing = 2) ∧
  (ResultCode.byte .nothing = 0x00 ∧ ResultCode.byte .pending = 0x01 ∧ ResultCode.byte .done = 0x02 ∧
   ResultCode.byte .badRequest = 0x10 ∧ ResultCode.byte .badParameter = 0x11 ∧ ResultCode.byte .notAttached = 0x12 ∧
   ResultCode.byte .outOfRange = 0x13 ∧ ResultCode.byte .nullAnchor = 0x14 ∧ ResultCode.byte .unbound = 0x15 ∧
   ResultCode.byte .notOwner = 0x16 ∧ ResultCode.byte .entryTaken = 0x17 ∧ ResultCode.byte .notOrphaned = 0x18 ∧
   ResultCode.byte .watchHold = 0x19 ∧ ResultCode.byte .runHold = 0x1A ∧ ResultCode.byte .compareFailed = 0x1B ∧
   ResultCode.byte .channelBusy = 0x1C ∧ ResultCode.byte .notArmed = 0x1D ∧ ResultCode.byte .empty = 0x1E ∧
   ResultCode.byte .serviceFull = 0x1F ∧ ResultCode.byte .serviceEmpty = 0x20 ∧ ResultCode.byte .dozeDeclined = 0x21) ∧
  (∀ (s : State) (p : PortId), s.supply = true →
     ((s.port p).frame = none → ∀ i, s.sdo p i = none) ∧
     ∀ o : OpenFrame, (s.port p).frame = some o →
       (∀ (j : Nat) (i : Nat) (b : Byte), i < 8 → o.header[j]? = some b → s.sdo p (8 * j + i) = some (b.getLsbD (7 - i))) ∧
       ∀ i, 8 * o.header.length ≤ i → s.sdo p i = some false) ∧
  ∀ (s : State) (p : PortId), (s.port p).queue.length ≤ 24 → (s.port p).slot.data.length ≤ 20 →
    (s.header p).length = 6 + (s.port p).slot.data.length ∧
    (byteAt (s.header p) 0).getLsbD 7 = s.ready ∧
    ((byteAt (s.header p) 0).extractLsb' 5 2).toNat = (s.port p).mode.code ∧
    (byteAt (s.header p) 0).getLsbD 4 = (s.port p).attention ∧
    (byteAt (s.header p) 0).getLsbD 3 = (s.port p).overrun ∧
    (byteAt (s.header p) 0).getLsbD 2 = (s.port p).busyRefused ∧
    (byteAt (s.header p) 0).getLsbD 1 = (s.port p).frameFault ∧
    (byteAt (s.header p) 0).getLsbD 0 = false ∧
    (byteAt (s.header p) 1).toNat = (s.port p).queue.length ∧
    (∀ q : PortId, ((byteAt (s.header p) 2).extractLsb' (2 * q.val) 2).toNat = (s.port q).mode.code) ∧
    byteAt (s.header p) 3 = (s.port p).slot.tag ∧
    byteAt (s.header p) 4 = (s.port p).slot.code.byte ∧
    (byteAt (s.header p) 5).toNat = (s.port p).slot.data.length ∧
    (s.header p).drop 6 = (s.port p).slot.data

/-- A frame start captures the header, and a DOZING port becomes ATTACHED after it, with nATTN following (R147,
R153, R108). That a frame start on a port with a frame open abandons that frame and captures a new header is the model's
choice (DESIGN CHOICE, log entry 13). -/
def Obligations.FrameStartCapturesHeader : Prop :=
  ∀ (p : PortId) (s : State), s.supply = true → s.settled →
    ((s.port p).mode ≠ .dozing →
      exec (.frameStart p) s =
        .next (s.modPort p (fun q => { q with frame := some ⟨s.header p, s.ready, false⟩ }))) ∧
    ((s.port p).mode = .dozing →
      exec (.frameStart p) s =
        .next (s.modPort p (fun q =>
          { q with
            frame := some ⟨s.header p, s.ready, false⟩
            mode := .attached
            attention := reaches q.queue q.threshold })))

/-- What a command does first. On a powered part a frame start, a frame end, a tick, a grant's access completion, a
LAPSE with no lapse due and, where no run-end notice is still to be posted, a grant act on the state in which nothing is
due any more. What is due is done in this order: the lapses of the latest tick (R86); a run-end notice still to be
posted; and, once the array is free, the deferred requests (R160), the aborts that waited for the segment (R132) and the
ticks that waited, each with its lapses (R83, R86), one at a time in the order in which they came. R55 fixes that order
between ownership requests, R90 admits either order of a tick and a table request, R110 and R111 either order of an
abort's notice and the others; that the order of coming decides elsewhere, and the other places that the spec leaves
open, are the model's choice (log entries 5, 6, 7, 23, 27 and 28). An access completion leaves what waited for it to
that. -/
def Obligations.DueBeforeEachCommand : Prop :=
  (∀ s : State, s.supply = true →
     (∀ (i : Instr) (f : Frame) (code : Byte) (params : List Byte),
       requestBytes i = some (f, code, params) → exec i s = exec i s.settle) ∧
     (∀ (f : Frame) (code : Byte), exec (.unknownCode f code) s = exec (.unknownCode f code) s.settle) ∧
     (∀ (p : PortId) (bits : Nat), exec (.nop p bits) s = exec (.nop p bits) s.settle) ∧
     (∀ p : PortId, exec (.emptyFrame p) s = exec (.emptyFrame p) s.settle ∧
       exec (.frameStart p) s = exec (.frameStart p) s.settle) ∧
     exec .tick s = exec .tick s.settle ∧
     exec (.memoryGrant .ends) s = exec (.memoryGrant .ends) s.settle ∧
     (∀ post, exec (.segmentGrant (.ends post)) s = exec (.segmentGrant (.ends post)) s.settle) ∧
     (s.lapsesDue = [] → exec .lapse s = .next s.settle) ∧
     (s.lateNotice = none →
       (∀ span, exec (.memoryGrant span) s = exec (.memoryGrant span) s.settle) ∧
       ∀ span, exec (.segmentGrant span) s = exec (.segmentGrant span) s.settle)) ∧
  (∀ s : State,
     (s.settled → s.settle = s) ∧
     (s.lapsesDue ≠ [] → ∀ t, exec .lapse s = .next t → s.settle = t.settle) ∧
     (s.lapsesDue = [] →
       (∀ l, s.lateNotice = some l →
         s.settle = (({ s with lateNotice := none } : State).postTo l.ports l.notice).settle) ∧
       (s.lateNotice = none → s.grant = none →
         (∀ (p : PortId) (rest : List Deferred), s.deferredOrder = .request p :: rest →
           (∀ r : Request, (s.port p).inFlight = some (.deferred r) →
             s.settle = (applied p r { s with deferredOrder := rest }).settle) ∧
           ∀ k : ChannelId, (s.port p).inFlight = some (.afterSegment k) →
             s.settle = (applied p (.abortChannel (BitVec.ofNat 8 k.val)) { s with deferredOrder := rest }).settle) ∧
         ∀ rest : List Deferred, s.deferredOrder = .tick :: rest →
           s.settle = (ticked { s with deferredOrder := rest }).settle))) ∧
  ∀ s : State, s.lapsesDue = [] → s.lateNotice = none →
    (∀ (p : PortId) (code : ResultCode) (data : List Byte), s.grant = some (.access p code data) →
      ∃ t, exec (.memoryGrant .ends) s = .next t ∧ t = ({ s with grant := none } : State).complete p code data ∧
        t.deferredOrder = s.deferredOrder) ∧
    ∀ (k : ChannelId) (moved : Option Nat) (post : RunEndPost), s.grant = some (.segment k moved) →
      ∃ t, exec (.segmentGrant (.ends post)) s = .next t ∧
        t = ({ s with grant := none } : State).segmentCompletes k moved post ∧ t.deferredOrder = s.deferredOrder

/-- Frames that take no request. A NOP frame and an empty frame change neither slot, request in flight nor flag. A frame
whose length does not match its code sets FRAME_FAULT and does nothing else; a request frame while the port has a
request in flight sets BUSY_REFUSED and does nothing else; a frame that started while READY was clear, or that an nRESET
assertion abandoned, sets no flag, whatever it carries (R156, R158, R159, R162, R163, R164). That a frame open across a
loss or a rise of the supply takes no request and sets no flag either is the model's choice (DESIGN CHOICE, log entry
25). -/
def Obligations.FramesNotTaken : Prop :=
  ((∀ (p : PortId) (s : State), s.frameOpen p → exec (.emptyFrame p) s = .next (s.frameOver p 0)) ∧
   ∀ (p : PortId) (bits : Nat) (s : State), s.frameOpen p → 8 ≤ bits → bits % 8 = 0 →
     exec (.nop p bits) s = .next (s.frameOver p bits)) ∧
  ((∀ (i : Instr) (f : Frame) (code : Byte) (params : List Byte) (s : State),
     requestBytes i = some (f, code, params) → s.frameOpen f.port → f.bits ≠ 0 →
     frameFits code (byteAt (code :: f.tag :: params) 6) f.bits = false →
       exec i s = .next ((s.frameOver f.port f.bits).modPort f.port (fun q => { q with frameFault := true }))) ∧
   (∀ (f : Frame) (code : Byte) (s : State), s.frameOpen f.port → f.bits ≠ 0 → (f.bits % 8 ≠ 0 ∨ f.bits < 16) →
     exec (.unknownCode f code) s =
       .next ((s.frameOver f.port f.bits).modPort f.port (fun q => { q with frameFault := true }))) ∧
   ∀ (p : PortId) (bits : Nat) (s : State), s.frameOpen p → bits % 8 ≠ 0 →
     exec (.nop p bits) s = .next ((s.frameOver p bits).modPort p (fun q => { q with frameFault := true }))) ∧
  ((∀ (i : Instr) (f : Frame) (code : Byte) (params : List Byte) (s : State),
     requestBytes i = some (f, code, params) → i.wellFormed = true → s.frameOpen f.port →
     (s.port f.port).inFlight.isSome = true →
     frameFits code (byteAt (code :: f.tag :: params) 6) f.bits = true →
       exec i s = .next ((s.frameOver f.port f.bits).modPort f.port (fun q => { q with busyRefused := true }))) ∧
   ∀ (f : Frame) (code : Byte) (s : State), s.frameOpen f.port → (s.port f.port).inFlight.isSome = true →
     f.bits % 8 = 0 → 16 ≤ f.bits →
       exec (.unknownCode f code) s =
         .next ((s.frameOver f.port f.bits).modPort f.port (fun q => { q with busyRefused := true }))) ∧
  ∀ (p : PortId) (o : OpenFrame) (s : State), s.supply = true → s.settled → (s.port p).mode ≠ .dozing →
    (s.port p).frame = some o → (o.ready = false ∨ o.abandoned = true) →
      (∀ (i : Instr) (f : Frame) (code : Byte) (params : List Byte),
        requestBytes i = some (f, code, params) → f.port = p → exec i s = .next (s.frameOver p f.bits)) ∧
      (∀ (f : Frame) (code : Byte), f.port = p → exec (.unknownCode f code) s = .next (s.frameOver p f.bits)) ∧
      (∀ bits : Nat, exec (.nop p bits) s = .next (s.frameOver p bits)) ∧
      exec (.emptyFrame p) s = .next (s.frameOver p 0)

/-- An unknown code completes BAD_REQUEST in every port state, and on a DETACHED port every request but ATTACH completes
NOT_ATTACHED, with no other effect (R139, R156). -/
def Obligations.AnsweredWithoutEffect : Prop :=
  (∀ (f : Frame) (code : Byte) (s : State), s.frameOpen f.port → (s.port f.port).inFlight = none →
    f.bits % 8 = 0 → 16 ≤ f.bits → exec (.unknownCode f code) s = .next (s.answered f .badRequest [])) ∧
  ∀ (i : Instr) (f : Frame) (code : Byte) (params : List Byte) (s : State),
    requestBytes i = some (f, code, params) → i.wellFormed = true → code ≠ 0x01 → s.frameOpen f.port →
    (s.port f.port).mode = .detached → (s.port f.port).inFlight = none →
    frameFits code (byteAt (code :: f.tag :: params) 6) f.bits = true →
      exec i s = .next (s.answered f .notAttached [])

/-- A frame-end command with no frame open stands for a whole frame: its start, then its end (the model's choice, log
entry 2). -/
def Obligations.FrameEndAloneIsWholeFrame : Prop :=
  ∀ (p : PortId) (s : State), s.supply = true → s.settled → (s.port p).frame = none →
    ∃ t, exec (.frameStart p) s = .next t ∧
      (∀ (i : Instr) (f : Frame) (code : Byte) (params : List Byte),
        requestBytes i = some (f, code, params) → f.port = p → exec i s = exec i t) ∧
      (∀ (f : Frame) (code : Byte), f.port = p → exec (.unknownCode f code) s = exec (.unknownCode f code) t) ∧
      (∀ bits : Nat, exec (.nop p bits) s = exec (.nop p bits) t) ∧
      exec (.emptyFrame p) s = exec (.emptyFrame p) t

/-! ### Ports and presence -/

/-- ATTACH on a DETACHED port: ATTACHED with no port reset, in no subscriber set and no report set (where a peer's
SET_CHANNEL named it meanwhile, that is the model's reading of R140, log entry 24), and one ATTACHED notice to each
other port. ATTACH on an
ATTACHED port and DETACH: the port reset of the port in every block, its new state, and one REATTACHED or DETACHED
notice to each other port (R51, R140 to R144). -/
def Obligations.AttachAndDetach : Prop :=
  (∀ (f : Frame) (s : State), s.frameOpen f.port → s.grant = none → (s.port f.port).inFlight = none →
     (s.port f.port).mode = .detached → f.bits = 8 * 2 →
       exec (.attach f) s =
         .next ((leftSets f.port (s.mapPorts (fun p q =>
           if p = f.port then { q with mode := .attached, attention := reaches q.queue q.threshold }
           else q.post (presence f.port 1)))).answered f .done [])) ∧
  ∀ (f : Frame) (s : State), s.serves f.port → f.bits = 8 * 2 →
    exec (.attach f) s =
      .next ((orphanTables f.port (s.mapPorts (fun p q =>
        if p = f.port then resetTo .attached q else q.post (presence f.port 2)))).answered f .done []) ∧
    exec (.detach f) s =
      .next ((orphanTables f.port (s.mapPorts (fun p q =>
        if p = f.port then resetTo .detached q else q.post (presence f.port 4)))).answered f .done [])

/-- DOZE is declined where the queue holds a record at or above the wake level; else the port is DOZING and nATTN is
released (R145). -/
def Obligations.DozeUnlessQueueReachesWakeLevel : Prop :=
  ∀ (f : Frame) (s : State), s.serves f.port → f.bits = 8 * 2 →
    ((∃ r ∈ (s.port f.port).queue, (s.port f.port).wake ≤ r.notice.priority) →
      exec (.doze f) s = .next (s.answered f .dozeDeclined [])) ∧
    ((∀ r ∈ (s.port f.port).queue, r.notice.priority < (s.port f.port).wake) →
      exec (.doze f) s =
        .next ((s.modPort f.port (fun q => { q with mode := .dozing, attention := false })).answered f .done []))

/-- SET_LEVELS writes both levels, leaves the service stack, and evaluates the attention condition anew; a level out
of range changes neither (R148). CLEAR_FLAGS clears exactly the flags it names; a set that names anything else clears
none (R149, Table 9-3). -/
def Obligations.SetLevelsAndClearFlags : Prop :=
  (∀ (f : Frame) (threshold wake : Byte) (s : State), s.serves f.port → f.bits = 8 * 4 →
     (1 ≤ threshold.toNat ∧ threshold.toNat ≤ 8 ∧ 1 ≤ wake.toNat ∧ wake.toNat ≤ 7 →
       exec (.setLevels f threshold wake) s =
         .next ((s.modPort f.port (fun q =>
           { q with
             threshold := threshold.toNat
             wake := wake.toNat
             attention := reaches q.queue threshold.toNat })).answered f .done [])) ∧
     (¬ (1 ≤ threshold.toNat ∧ threshold.toNat ≤ 8 ∧ 1 ≤ wake.toNat ∧ wake.toNat ≤ 7) →
       exec (.setLevels f threshold wake) s = .next (s.answered f .badParameter []))) ∧
  ∀ (f : Frame) (flags : Byte) (s : State), s.serves f.port → f.bits = 8 * 3 →
    ((∀ i : Fin 8, i.val = 0 ∨ 4 ≤ i.val → flags.getLsbD i.val = false) →
      exec (.clearFlags f flags) s =
        .next ((s.modPort f.port (fun q =>
          { q with
            overrun := if flags.getLsbD 3 = true then false else q.overrun
            busyRefused := if flags.getLsbD 2 = true then false else q.busyRefused
            frameFault := if flags.getLsbD 1 = true then false else q.frameFault })).answered f .done [])) ∧
    ((∃ i : Fin 8, (i.val = 0 ∨ 4 ≤ i.val) ∧ flags.getLsbD i.val = true) →
      exec (.clearFlags f flags) s = .next (s.answered f .badParameter []))

/-! ### The notice unit -/

/-- TAKE_NOTICE removes the oldest record of the highest priority present and returns it; with ENTER_SERVICE it
pushes the threshold and sets it from the record. Refused, it removes no record and leaves threshold and stack:
BAD_PARAMETER, EMPTY, SERVICE_FULL, in that order (R102, R104). The bytes of a record are those of
LayoutsOfTheTables. -/
def Obligations.TakeNoticeRemovesMostUrgent : Prop :=
  (∀ (f : Frame) (s : State) (older newer : List Record) (r : Record), s.serves f.port → f.bits = 8 * 3 →
     (s.port f.port).queue = older ++ r :: newer →
     (∀ x ∈ older, x.notice.priority < r.notice.priority) → (∀ x ∈ newer, x.notice.priority ≤ r.notice.priority) →
       exec (.takeNotice f 0) s =
         .next ((s.modPort f.port (fun q =>
           { q with queue := older ++ newer, attention := reaches (older ++ newer) q.threshold })).answered f .done
             r.bytes) ∧
       ((s.port f.port).stack.length < 4 →
         exec (.takeNotice f 1) s =
           .next ((s.modPort f.port (fun q =>
             { q with
               queue := older ++ newer
               stack := q.threshold :: q.stack
               threshold := min (r.notice.priority + 1) 8
               attention := reaches (older ++ newer) (min (r.notice.priority + 1) 8) })).answered f .done r.bytes))) ∧
  ∀ (f : Frame) (mode : Byte) (s : State), s.serves f.port → f.bits = 8 * 3 →
    (2 ≤ mode.toNat → exec (.takeNotice f mode) s = .next (s.answered f .badParameter [])) ∧
    (mode.toNat < 2 → (s.port f.port).queue = [] →
      exec (.takeNotice f mode) s = .next (s.answered f .empty [])) ∧
    (mode.toNat = 1 → (s.port f.port).queue ≠ [] → 4 ≤ (s.port f.port).stack.length →
      exec (.takeNotice f mode) s = .next (s.answered f .serviceFull []))

/-- FINISH_SERVICE restores the threshold pushed last, and the attention condition with it; on an empty stack it is
refused with SERVICE_EMPTY (R105). -/
def Obligations.FinishServiceRestoresThreshold : Prop :=
  ∀ (f : Frame) (s : State), s.serves f.port → f.bits = 8 * 2 →
    (∀ (t : Nat) (rest : List Nat), (s.port f.port).stack = t :: rest →
      exec (.finishService f) s =
        .next ((s.modPort f.port (fun q =>
          { q with stack := rest, threshold := t, attention := reaches q.queue t })).answered f .done [])) ∧
    ((s.port f.port).stack = [] → exec (.finishService f) s = .next (s.answered f .serviceEmpty []))

/-- The four ways a post ends: discarded at a DETACHED port; absorbed by the record of the same WATCH or ANCHOR source
and kinds; appended; dropped with OVERRUN (R95 to R100, R108, R146). -/
def Obligations.PostEndsInOneOfFourWays : Prop :=
  ∀ (q : Port) (n : Notice),
    (q.mode = .detached → q.post n = q) ∧
    (∀ (older newer : List Record) (r : Record), q.mode ≠ .detached → q.queue = older ++ r :: newer →
      ((∃ w, n.source = .watch w) ∨ ∃ a, n.source = .anchor a) →
      r.notice.source = n.source → r.notice.kinds = n.kinds →
      (∀ x ∈ older, x.notice.source ≠ n.source ∨ x.notice.kinds ≠ n.kinds) →
        q.post n =
          { q with
            queue := older ++ ⟨r.seq, countUp 255 r.repeats, n⟩ :: newer
            mode := if q.mode = .dozing ∧ q.wake ≤ n.priority then .attached else q.mode
            attention := decide (q.mode = .attached ∨ q.wake ≤ n.priority) &&
              reaches (older ++ ⟨r.seq, countUp 255 r.repeats, n⟩ :: newer) q.threshold }) ∧
    (q.mode ≠ .detached →
      ((∃ k, n.source = .channel k) ∨ (∃ p, n.source = .presence p) ∨
        ∀ x ∈ q.queue, x.notice.source ≠ n.source ∨ x.notice.kinds ≠ n.kinds) →
        (q.queue.length < 24 →
          ∃ seq, seq = (if q.queue.getLast?.map Record.seq = some q.nextSeq then (q.nextSeq + 1) % 65536
              else q.nextSeq) ∧
            q.post n =
              { q with
                queue := q.queue ++ [⟨seq, 1, n⟩]
                nextSeq := (seq + 1) % 65536
                mode := if q.mode = .dozing ∧ q.wake ≤ n.priority then .attached else q.mode
                attention := decide (q.mode = .attached ∨ q.wake ≤ n.priority) &&
                  reaches (q.queue ++ [⟨seq, 1, n⟩]) q.threshold }) ∧
        (24 ≤ q.queue.length → q.post n = { q with overrun := true }))

/-! ### Anchors and cursors -/

/-- SET_ANCHOR with a base replaces the entry and sets every cursor bound to it back to offset 0; with NULL it makes
the anchor null and unbinds them. No other cursor and no other anchor changes. Its refusals in their order,
BAD_PARAMETER, NOT_OWNER, OUT_OF_RANGE, change no anchor and no cursor (R24 to R26). -/
def Obligations.SetAnchorReplacesEntry : Prop :=
  (∀ (f : Frame) (a : AnchorId) (base length : Half) (ring access : Byte) (s : State), s.serves f.port →
     f.bits = 8 * 9 → (s.anchor a).owner = .owned f.port → access.toNat ≤ 1 →
       (base ≠ 65535 → 1 ≤ length.toNat → base.toNat + length.toNat ≤ 32768 →
         exec (.setAnchor f ⟨BitVec.ofNat 8 a.val, base, length, ring, access⟩) s =
           .next (((s.setAnchor a
             ⟨.owned f.port, some ⟨base.toNat, length.toNat⟩, ring != 0, accessOf access⟩).mapCursors
             (rewound a)).answered f .done [])) ∧
       (base = 65535 →
         exec (.setAnchor f ⟨BitVec.ofNat 8 a.val, base, length, ring, access⟩) s =
           .next (((s.setAnchor a ⟨.owned f.port, none, ring != 0, accessOf access⟩).mapCursors
             (unbound a)).answered f .done []))) ∧
  ∀ (f : Frame) (b : AnchorBytes) (s : State), s.serves f.port → f.bits = 8 * 9 →
    (32 ≤ b.anchor.toNat ∨ 2 ≤ b.access.toNat ∨
        (b.base ≠ 65535 ∧ (b.length.toNat = 0 ∨ 32768 < b.length.toNat)) →
      exec (.setAnchor f b) s = .next (s.answered f .badParameter [])) ∧
    ∀ a : AnchorId, b.anchor = BitVec.ofNat 8 a.val → b.access.toNat < 2 →
      (b.base = 65535 ∨ (1 ≤ b.length.toNat ∧ b.length.toNat ≤ 32768)) →
        ((s.anchor a).owner ≠ .owned f.port → exec (.setAnchor f b) s = .next (s.answered f .notOwner [])) ∧
        ((s.anchor a).owner = .owned f.port → b.base ≠ 65535 → 32768 < b.base.toNat + b.length.toNat →
          exec (.setAnchor f b) s = .next (s.answered f .outOfRange []))

/-- BIND_CURSOR binds the port's own cursor at an offset within the anchor's bounds, whoever owns the anchor, and is
else refused with BAD_PARAMETER, NULL_ANCHOR or OUT_OF_RANGE and leaves the cursor (R28). QUERY_CURSOR reports the
cursor's own binding, anchor and offset, and changes nothing (R29). -/
def Obligations.BindAndQueryCursor : Prop :=
  (∀ (f : Frame) (offset : Half) (s : State), s.serves f.port → f.bits = 8 * 6 →
     (∀ cursor anchor : Byte, 4 ≤ cursor.toNat ∨ 32 ≤ anchor.toNat →
       exec (.bindCursor f cursor anchor offset) s = .next (s.answered f .badParameter [])) ∧
     ∀ (c : CursorId) (a : AnchorId),
       ((s.anchor a).region = none →
         exec (.bindCursor f (BitVec.ofNat 8 c.val) (BitVec.ofNat 8 a.val) offset) s =
           .next (s.answered f .nullAnchor [])) ∧
       ∀ g : Region, (s.anchor a).region = some g →
         ((offset.toNat ≤ g.length ∧ ((s.anchor a).ring = true → offset.toNat < g.length)) →
           exec (.bindCursor f (BitVec.ofNat 8 c.val) (BitVec.ofNat 8 a.val) offset) s =
             .next ((s.modPort f.port (fun q =>
               { q with cursors := q.cursors.set c (some ⟨a, offset.toNat⟩) })).answered f .done [])) ∧
         (¬ (offset.toNat ≤ g.length ∧ ((s.anchor a).ring = true → offset.toNat < g.length)) →
           exec (.bindCursor f (BitVec.ofNat 8 c.val) (BitVec.ofNat 8 a.val) offset) s =
             .next (s.answered f .outOfRange []))) ∧
  ∀ (f : Frame) (s : State), s.serves f.port → f.bits = 8 * 3 →
    (∀ cursor : Byte, 4 ≤ cursor.toNat → exec (.queryCursor f cursor) s = .next (s.answered f .badParameter [])) ∧
    ∀ c : CursorId,
      ((s.port f.port).cursor c = none →
        exec (.queryCursor f (BitVec.ofNat 8 c.val)) s = .next (s.answered f .done [0, 0, 0, 0])) ∧
      ∀ b : Binding, (s.port f.port).cursor c = some b →
        exec (.queryCursor f (BitVec.ofNat 8 c.val)) s =
          .next (s.answered f .done [1, BitVec.ofNat 8 b.anchor.val, BitVec.ofNat 8 b.offset,
            BitVec.ofNat 8 (b.offset / 256)])

/-- Where an access that resolution admits falls, in order of access, and the offset its motion stores; and the
refusals of resolution in their order: UNBOUND, NULL_ANCHOR, NOT_OWNER, OUT_OF_RANGE (R10, R30, R31, R32, R34 to
R37). -/
def Obligations.ResolutionGivesPlaceOrRefuses : Prop :=
  (∀ (s : State) (p : PortId) (op : MemoryOp),
     (∀ address : Nat,
       s.resolve p ⟨.absolute address, op⟩ = .ok ⟨(List.range op.size).map (fun i => address + i), none⟩) ∧
     (∀ (a : AnchorId) (offset : Nat) (g : Region), (s.anchor a).region = some g →
       (op.writes = true → (s.anchor a).access = .shared ∨ (s.anchor a).owner = .owned p) →
         ((s.anchor a).ring = false → offset + op.size ≤ g.length →
           s.resolve p ⟨.anchored a offset, op⟩ =
             .ok ⟨(List.range op.size).map (fun i => g.base + (offset + i)), none⟩) ∧
         ((s.anchor a).ring = true → offset < g.length → op.size ≤ g.length →
           s.resolve p ⟨.anchored a offset, op⟩ =
             .ok ⟨(List.range op.size).map (fun i => g.base + (offset + i) % g.length), none⟩)) ∧
     ∀ (c : CursorId) (b : Binding) (g : Region), (s.port p).cursor c = some b →
       (s.anchor b.anchor).region = some g →
       (op.writes = true → (s.anchor b.anchor).access = .shared ∨ (s.anchor b.anchor).owner = .owned p) →
         ((s.anchor b.anchor).ring = false →
           (b.offset + op.size ≤ g.length →
             s.resolve p ⟨.cursor c .at, op⟩ =
               .ok ⟨(List.range op.size).map (fun i => g.base + (b.offset + i)), some (c, b.offset)⟩ ∧
             s.resolve p ⟨.cursor c .postAdvance, op⟩ =
               .ok ⟨(List.range op.size).map (fun i => g.base + (b.offset + i)), some (c, b.offset + op.size)⟩) ∧
           (op.size ≤ b.offset →
             s.resolve p ⟨.cursor c .preRetreat, op⟩ =
               .ok ⟨(List.range op.size).map (fun i => g.base + (b.offset - op.size + i)),
                 some (c, b.offset - op.size)⟩)) ∧
         ((s.anchor b.anchor).ring = true → op.size ≤ g.length →
           s.resolve p ⟨.cursor c .at, op⟩ =
             .ok ⟨(List.range op.size).map (fun i => g.base + (b.offset + i) % g.length), some (c, b.offset)⟩ ∧
           s.resolve p ⟨.cursor c .postAdvance, op⟩ =
             .ok ⟨(List.range op.size).map (fun i => g.base + (b.offset + i) % g.length),
               some (c, (b.offset + op.size) % g.length)⟩ ∧
           s.resolve p ⟨.cursor c .preRetreat, op⟩ =
             .ok ⟨(List.range op.size).map (fun i =>
                 g.base + ((b.offset + g.length - op.size) % g.length + i) % g.length),
               some (c, (b.offset + g.length - op.size) % g.length)⟩)) ∧
  ∀ (s : State) (p : PortId) (op : MemoryOp),
    (∀ (c : CursorId) (m : Motion), (s.port p).cursor c = none →
      s.resolve p ⟨.cursor c m, op⟩ = .error .unbound) ∧
    (∀ (a : AnchorId) (offset : Nat), (s.anchor a).region = none →
      s.resolve p ⟨.anchored a offset, op⟩ = .error .nullAnchor) ∧
    (∀ (a : AnchorId) (offset : Nat) (g : Region), (s.anchor a).region = some g →
      (op.writes = true → (s.anchor a).access = .ownerWrites → (s.anchor a).owner ≠ .owned p →
        s.resolve p ⟨.anchored a offset, op⟩ = .error .notOwner) ∧
      ((op.writes = true → (s.anchor a).access = .shared ∨ (s.anchor a).owner = .owned p) →
        ((s.anchor a).ring = false ∧ g.length < offset + op.size ∨
          (s.anchor a).ring = true ∧ (g.length ≤ offset ∨ g.length < op.size)) →
          s.resolve p ⟨.anchored a offset, op⟩ = .error .outOfRange)) ∧
    ∀ (c : CursorId) (m : Motion) (b : Binding) (g : Region), (s.port p).cursor c = some b →
      (s.anchor b.anchor).region = some g →
        (op.writes = true → (s.anchor b.anchor).access = .ownerWrites → (s.anchor b.anchor).owner ≠ .owned p →
          s.resolve p ⟨.cursor c m, op⟩ = .error .notOwner) ∧
        ((op.writes = true → (s.anchor b.anchor).access = .shared ∨ (s.anchor b.anchor).owner = .owned p) →
          ((s.anchor b.anchor).ring = true ∧ g.length < op.size ∨
            (s.anchor b.anchor).ring = false ∧ m ≠ .preRetreat ∧ g.length < b.offset + op.size ∨
            (s.anchor b.anchor).ring = false ∧ m = .preRetreat ∧ b.offset < op.size) →
            s.resolve p ⟨.cursor c m, op⟩ = .error .outOfRange)

/-! ### Entry ownership -/

/-- CLAIM makes a FREE entry the requester's, ADOPT an ORPHANED one; the owner field is all that changes (R44, R45).
The refusals of the ownership requests: BAD_PARAMETER for a table and index that name no entry, ENTRY_TAKEN,
NOT_ORPHANED, NOT_OWNER, CHANNEL_BUSY (R43 to R46). -/
def Obligations.OwnershipRequests : Prop :=
  (∀ (f : Frame) (x : Entry) (s : State), s.serves f.port → f.bits = 8 * 4 →
     (s.ownerOf x = .free →
       exec (.claim f (tableByte x) (indexByte x)) s = .next ((s.setOwner x (.owned f.port)).answered f .done [])) ∧
     (s.ownerOf x = .orphaned →
       exec (.adopt f (tableByte x) (indexByte x)) s = .next ((s.setOwner x (.owned f.port)).answered f .done []))) ∧
  ∀ (f : Frame) (s : State), s.serves f.port → f.bits = 8 * 4 →
    (∀ table index : Byte, namesNone table index →
      exec (.claim f table index) s = .next (s.answered f .badParameter []) ∧
      exec (.adopt f table index) s = .next (s.answered f .badParameter []) ∧
      exec (.release f table index) s = .next (s.answered f .badParameter []) ∧
      exec (.queryEntry f table index) s = .next (s.answered f .badParameter [])) ∧
    ∀ x : Entry,
      (s.ownerOf x ≠ .free →
        exec (.claim f (tableByte x) (indexByte x)) s = .next (s.answered f .entryTaken [])) ∧
      (s.ownerOf x ≠ .orphaned →
        exec (.adopt f (tableByte x) (indexByte x)) s = .next (s.answered f .notOrphaned [])) ∧
      (s.ownerOf x ≠ .owned f.port →
        exec (.release f (tableByte x) (indexByte x)) s = .next (s.answered f .notOwner [])) ∧
      ∀ k : ChannelId, x = .channel k → (s.channel k).owner = .owned f.port → (s.channel k).phase ≠ .idle →
        exec (.release f (tableByte x) (indexByte x)) s = .next (s.answered f .channelBusy [])

/-- RELEASE of an anchor, of a watch and of an IDLE channel: the fields it sets and the fields it keeps (R46 to R49). -/
def Obligations.ReleaseFreesEntry : Prop :=
  ∀ (f : Frame) (s : State), s.serves f.port → f.bits = 8 * 4 →
    (∀ a : AnchorId, (s.anchor a).owner = .owned f.port →
      exec (.release f 0 (BitVec.ofNat 8 a.val)) s =
        .next (((s.setAnchor a ⟨.free, none, false, .shared⟩).mapCursors (unbound a)).answered f .done [])) ∧
    (∀ w : WatchId, (s.watch w).owner = .owned f.port →
      exec (.release f 1 (BitVec.ofNat 8 w.val)) s =
        .next ((s.setWatch w { s.watch w with
          owner := .free
          config := { (s.watch w).config with enabled := false, permit := 0, hold := false }
          subscribers := 0
          quiet := .stopped
          hits := 0 }).answered f .done [])) ∧
    ∀ k : ChannelId, (s.channel k).owner = .owned f.port → (s.channel k).phase = .idle →
      exec (.release f 2 (BitVec.ofNat 8 k.val)) s =
        .next ((s.setChannel k ⟨.free, ⟨0, 0, 0, false, 1, .eachRun, 4, 0⟩, .count 0, .idle, 0, 0⟩).answered f .done [])

/-- QUERY_ENTRY reports an entry of any owner state in the layout of Table 9-5, in 6, 20 or 17 bytes, and changes
nothing (R54), with the codes of Tables 9-3 and 9-5. The bits of the owner byte: its state in bits 7 and 6, its port in
bits 1 and 0. That bits 5 to 2, and the port bits of an entry that is not OWNED, read 0, and the unassigned bits of the
other bytes, is the model's choice (log entry 8). -/
def Obligations.QueryEntryReportsEntry : Prop :=
  (Owner.byte .free = 0x00 ∧ Owner.byte .orphaned = 0x80 ∧
   (∀ p : PortId, ((Owner.byte (.owned p)).extractLsb' 6 2).toNat = 1 ∧
     ((Owner.byte (.owned p)).extractLsb' 2 4).toNat = 0 ∧ ((Owner.byte (.owned p)).extractLsb' 0 2).toNat = p.val) ∧
   Width.code .one = 0 ∧ Width.code .two = 1 ∧ Width.code .four = 2 ∧
   Condition.code .equal = 0 ∧ Condition.code .notEqual = 1 ∧ Condition.code .above = 2 ∧ Condition.code .below = 3 ∧
   QuietState.code .stopped = 0 ∧ QuietState.code .running = 1 ∧ QuietState.code .lapsed = 2 ∧
   Phase.code .idle = 0 ∧ Phase.code .armed = 1 ∧ Phase.code .running = 2 ∧ Phase.code .runningLatched = 3 ∧
   triggerCode none = 0 ∧ (∀ k : ChannelId, triggerCode (some k) = k.val + 1) ∧
   Runs.bytes .unlimited = [0xFF, 0xFF] ∧ ∀ n : Nat, Runs.bytes (.count n) = [BitVec.ofNat 8 n, BitVec.ofNat 8 (n / 256)]) ∧
  ∀ (f : Frame) (s : State), s.serves f.port → f.bits = 8 * 4 →
    (∀ (a : AnchorId) (e : Anchor), s.anchor a = e →
      ∃ data, data.length = 6 ∧ exec (.queryEntry f 0 (BitVec.ofNat 8 a.val)) s = .next (s.answered f .done data) ∧
        data = e.owner.byte :: (leBytes 2 (e.region.elim 65535 Region.base) ++
          leBytes 2 (e.region.elim 0 Region.length) ++
          [(if e.ring = true then 1 else 0) ||| (if e.access = .ownerWrites then 2 else 0)])) ∧
    (∀ (w : WatchId) (e : Watch), s.watch w = e →
      ∃ data, data.length = 20 ∧ exec (.queryEntry f 1 (BitVec.ofNat 8 w.val)) s = .next (s.answered f .done data) ∧
        data = [e.owner.byte,
            (if e.config.enabled = true then 1 else 0) ||| (if e.config.hold = true then 2 else 0) |||
            (if e.config.excludeWriter = true then 4 else 0) ||| (if e.config.mode = .level then 8 else 0) |||
            (if e.lastOutcome = true then 16 else 0)] ++
          leBytes 2 e.config.start ++ leBytes 2 e.config.stop ++
          [BitVec.ofNat 8 (e.config.kinds.toNat + 16 * e.config.width.code + 64 * e.config.condition.code),
            e.config.permit] ++ leBytes 4 e.config.reference ++ leBytes 2 e.config.quietLimit ++
          [BitVec.ofNat 8 (e.quiet.code + 16 * e.config.priority)] ++ leBytes 2 e.countdown ++
          [BitVec.ofNat 8 (e.subscribers.toNat + 16 * triggerCode e.config.trigger)] ++ leBytes 2 e.hits) ∧
    ∀ (k : ChannelId) (e : Channel), s.channel k = e →
      ∃ data, data.length = 17 ∧ exec (.queryEntry f 2 (BitVec.ofNat 8 k.val)) s = .next (s.answered f .done data) ∧
        data = e.owner.byte :: (leBytes 2 e.config.source ++ leBytes 2 e.config.destination ++
          leBytes 2 e.config.length ++
          [(if e.config.sourceHold = true then 1 else 0) ||| (if e.config.notify = .lastRun then 2 else 0),
            BitVec.ofNat 8 e.config.budget] ++ e.runsLeft.bytes ++
          [BitVec.ofNat 8 e.config.priority, BitVec.ofNat 8 e.config.report.toNat, BitVec.ofNat 8 e.phase.code] ++
          leBytes 2 e.copied ++ [BitVec.ofNat 8 e.collapsed])

/-! ### Watches -/

/-- SET_WATCH replaces the whole configuration, clears the hit count, evaluates the compare word, and loads or stops
the countdown; owner and subscribers stand (R60 to R62). Every parameter out of its range, and the compare word
outside the range of a COMPARE watch, is BAD_PARAMETER; then NOT_OWNER; neither changes the entry (R60). -/
def Obligations.SetWatchReplacesConfiguration : Prop :=
  (∀ (f : Frame) (w : WatchId) (b : WatchBytes) (width : Width) (condition : Condition) (trigger : Option ChannelId)
     (s : State), s.serves f.port → f.bits = 8 * 20 → (s.watch w).owner = .owned f.port →
     b.watch = BitVec.ofNat 8 w.val → b.width = BitVec.ofNat 8 width.bytes →
     b.condition = BitVec.ofNat 8 condition.code → b.trigger = BitVec.ofNat 8 (triggerCode trigger) →
     b.start.toNat < 32768 → b.stop.toNat < 32768 → b.start.toNat + width.bytes ≤ 32768 →
     (b.kinds.getLsbD 2 = true → b.stop.toNat < b.start.toNat ∨ b.start.toNat + width.bytes ≤ b.stop.toNat + 1) →
     b.reference.toNat < 256 ^ width.bytes → 1 ≤ b.quietLimit.toNat →
     1 ≤ b.priority.toNat → b.priority.toNat ≤ 7 →
       exec (.setWatch f b) s =
         .next ((s.setWatch w { s.watch w with
           config :=
             { enabled := b.flags.getLsbD 0
               start := b.start.toNat
               stop := b.stop.toNat
               kinds := b.kinds.setWidth 4
               hold := b.flags.getLsbD 1
               permit := b.permit
               width := width
               condition := condition
               reference := b.reference.toNat
               mode := if b.flags.getLsbD 3 = true then .level else .edge
               quietLimit := b.quietLimit.toNat
               priority := b.priority.toNat
               excludeWriter := b.flags.getLsbD 2
               trigger := trigger }
           hits := 0
           lastOutcome := b.flags.getLsbD 0 &&
             condition.holds (valueAt s.array b.start.toNat width.bytes) b.reference.toNat
           quiet := if b.flags.getLsbD 0 = true ∧ b.kinds.getLsbD 3 = true then .running else .stopped
           countdown := if b.flags.getLsbD 0 = true ∧ b.kinds.getLsbD 3 = true then b.quietLimit.toNat else 0 }).answered
             f .done [])) ∧
  ∀ (f : Frame) (b : WatchBytes) (s : State), s.serves f.port → f.bits = 8 * 20 →
    (16 ≤ b.watch.toNat ∨ 32768 ≤ b.start.toNat ∨ 32768 ≤ b.stop.toNat ∨
        (b.width ≠ 1 ∧ b.width ≠ 2 ∧ b.width ≠ 4) ∨ 32768 < b.start.toNat + b.width.toNat ∨
        (b.kinds.getLsbD 2 = true ∧ b.start.toNat ≤ b.stop.toNat ∧
          b.stop.toNat + 1 < b.start.toNat + b.width.toNat) ∨
        4 ≤ b.condition.toNat ∨ 256 ^ b.width.toNat ≤ b.reference.toNat ∨ b.quietLimit.toNat = 0 ∨
        b.priority.toNat = 0 ∨ 8 ≤ b.priority.toNat ∨ 5 ≤ b.trigger.toNat →
      exec (.setWatch f b) s = .next (s.answered f .badParameter [])) ∧
    (b.watch.toNat < 16 → b.start.toNat < 32768 → b.stop.toNat < 32768 →
      (b.width = 1 ∨ b.width = 2 ∨ b.width = 4) → b.start.toNat + b.width.toNat ≤ 32768 →
      (b.kinds.getLsbD 2 = true → b.stop.toNat < b.start.toNat ∨
        b.start.toNat + b.width.toNat ≤ b.stop.toNat + 1) →
      b.condition.toNat < 4 → b.reference.toNat < 256 ^ b.width.toNat → 1 ≤ b.quietLimit.toNat →
      1 ≤ b.priority.toNat → b.priority.toNat < 8 → b.trigger.toNat < 5 →
      (∀ w : WatchId, w.val = b.watch.toNat → (s.watch w).owner ≠ .owned f.port) →
        exec (.setWatch f b) s = .next (s.answered f .notOwner []))

/-- SUBSCRIBE adds and UNSUBSCRIBE removes the requesting port alone, on a watch that is not FREE; a FREE watch and a
number above 15 are BAD_PARAMETER (R63, R64). -/
def Obligations.SubscriptionsOfRequester : Prop :=
  ∀ (f : Frame) (s : State), s.serves f.port → f.bits = 8 * 3 →
    (∀ n : Byte, 16 ≤ n.toNat →
      exec (.subscribe f n) s = .next (s.answered f .badParameter []) ∧
      exec (.unsubscribe f n) s = .next (s.answered f .badParameter [])) ∧
    ∀ w : WatchId,
      ((s.watch w).owner = .free →
        exec (.subscribe f (BitVec.ofNat 8 w.val)) s = .next (s.answered f .badParameter []) ∧
        exec (.unsubscribe f (BitVec.ofNat 8 w.val)) s = .next (s.answered f .badParameter [])) ∧
      ((s.watch w).owner ≠ .free →
        (∃ set : BitVec 4, (∀ p : PortId, set.getLsbD p.val = ((s.watch w).subscribers.getLsbD p.val || p == f.port)) ∧
          exec (.subscribe f (BitVec.ofNat 8 w.val)) s =
            .next ((s.setWatch w { s.watch w with subscribers := set }).answered f .done [])) ∧
        (∃ set : BitVec 4, (∀ p : PortId, set.getLsbD p.val = ((s.watch w).subscribers.getLsbD p.val && p != f.port)) ∧
          exec (.unsubscribe f (BitVec.ofNat 8 w.val)) s =
            .next ((s.setWatch w { s.watch w with subscribers := set }).answered f .done [])))

/-! ### Channels -/

/-- SET_CHANNEL replaces the whole configuration and clears runs left, copied and collapsed (R117). Its refusals in
their order: BAD_PARAMETER, NOT_OWNER, CHANNEL_BUSY. -/
def Obligations.SetChannelReplacesConfiguration : Prop :=
  (∀ (f : Frame) (k : ChannelId) (b : ChannelBytes) (s : State), s.serves f.port → f.bits = 8 * 13 →
     (s.channel k).owner = .owned f.port → (s.channel k).phase = .idle → b.channel = BitVec.ofNat 8 k.val →
     b.source.toNat < 32768 → b.destination.toNat < 32768 → 1 ≤ b.length.toNat → b.length.toNat ≤ 4096 →
     b.source.toNat + b.length.toNat ≤ 32768 → b.destination.toNat + b.length.toNat ≤ 32768 →
     (b.destination.toNat + b.length.toNat ≤ b.source.toNat ∨
       b.source.toNat + b.length.toNat ≤ b.destination.toNat) →
     1 ≤ b.priority.toNat → b.priority.toNat ≤ 7 → b.report.toNat < 16 →
       exec (.setChannel f b) s =
         .next ((s.setChannel k
           { owner := .owned f.port
             config :=
               { source := b.source.toNat
                 destination := b.destination.toNat
                 length := b.length.toNat
                 sourceHold := b.flags.getLsbD 0
                 budget := b.budget.toNat
                 notify := if b.flags.getLsbD 1 = true then .lastRun else .eachRun
                 priority := b.priority.toNat
                 report := b.report.setWidth 4 }
             runsLeft := .count 0
             phase := .idle
             copied := 0
             collapsed := 0 }).answered f .done [])) ∧
  ∀ (f : Frame) (b : ChannelBytes) (s : State), s.serves f.port → f.bits = 8 * 13 →
    (4 ≤ b.channel.toNat ∨ 32768 ≤ b.source.toNat ∨ 32768 ≤ b.destination.toNat ∨ b.length.toNat = 0 ∨
        4096 < b.length.toNat ∨ 32768 < b.source.toNat + b.length.toNat ∨
        32768 < b.destination.toNat + b.length.toNat ∨
        (b.source.toNat < b.destination.toNat + b.length.toNat ∧
          b.destination.toNat < b.source.toNat + b.length.toNat) ∨
        b.priority.toNat = 0 ∨ 8 ≤ b.priority.toNat ∨ 16 ≤ b.report.toNat →
      exec (.setChannel f b) s = .next (s.answered f .badParameter [])) ∧
    ∀ k : ChannelId, k.val = b.channel.toNat → b.source.toNat < 32768 → b.destination.toNat < 32768 →
      1 ≤ b.length.toNat → b.length.toNat ≤ 4096 → b.source.toNat + b.length.toNat ≤ 32768 →
      b.destination.toNat + b.length.toNat ≤ 32768 →
      (b.destination.toNat + b.length.toNat ≤ b.source.toNat ∨
        b.source.toNat + b.length.toNat ≤ b.destination.toNat) →
      1 ≤ b.priority.toNat → b.priority.toNat < 8 → b.report.toNat < 16 →
        ((s.channel k).owner ≠ .owned f.port → exec (.setChannel f b) s = .next (s.answered f .notOwner [])) ∧
        ((s.channel k).owner = .owned f.port → (s.channel k).phase ≠ .idle →
          exec (.setChannel f b) s = .next (s.answered f .channelBusy []))

/-- ARM_CHANNEL loads runs left from the budget, clears collapsed and makes the channel ARMED; its refusals in their
order (R118). -/
def Obligations.ArmChannelLoadsBudget : Prop :=
  ∀ (f : Frame) (s : State), s.serves f.port → f.bits = 8 * 3 →
    (∀ n : Byte, 4 ≤ n.toNat → exec (.armChannel f n) s = .next (s.answered f .badParameter [])) ∧
    ∀ k : ChannelId,
      ((s.channel k).owner ≠ .owned f.port →
        exec (.armChannel f (BitVec.ofNat 8 k.val)) s = .next (s.answered f .notOwner [])) ∧
      ((s.channel k).owner = .owned f.port →
        ((s.channel k).phase ≠ .idle →
          exec (.armChannel f (BitVec.ofNat 8 k.val)) s = .next (s.answered f .channelBusy [])) ∧
        ((s.channel k).phase = .idle → (s.channel k).config.length = 0 →
          exec (.armChannel f (BitVec.ofNat 8 k.val)) s = .next (s.answered f .badParameter [])) ∧
        ((s.channel k).phase = .idle → (s.channel k).config.length ≠ 0 →
          exec (.armChannel f (BitVec.ofNat 8 k.val)) s =
            .next ((s.setChannel k { s.channel k with
              runsLeft := if (s.channel k).config.budget = 0 then .unlimited else .count (s.channel k).config.budget
              collapsed := 0
              phase := .armed }).answered f .done [])))

/-- START_CHANNEL gives one trigger by the channel's state: it begins a run, latches, or counts as collapsed; an IDLE
channel is NOT_ARMED (R120, R121). -/
def Obligations.StartChannelTriggers : Prop :=
  ∀ (f : Frame) (s : State), s.serves f.port → f.bits = 8 * 3 →
    (∀ n : Byte, 4 ≤ n.toNat → exec (.startChannel f n) s = .next (s.answered f .badParameter [])) ∧
    ∀ k : ChannelId,
      ((s.channel k).owner ≠ .owned f.port →
        exec (.startChannel f (BitVec.ofNat 8 k.val)) s = .next (s.answered f .notOwner [])) ∧
      ((s.channel k).owner = .owned f.port →
        ((s.channel k).phase = .idle →
          exec (.startChannel f (BitVec.ofNat 8 k.val)) s = .next (s.answered f .notArmed [])) ∧
        ((s.channel k).phase = .armed →
          exec (.startChannel f (BitVec.ofNat 8 k.val)) s =
            .next ((s.setChannel k { s.channel k with phase := .running, copied := 0 }).answered f .done [])) ∧
        ((s.channel k).phase = .running →
          exec (.startChannel f (BitVec.ofNat 8 k.val)) s =
            .next ((s.setChannel k { s.channel k with phase := .runningLatched }).answered f .done [])) ∧
        ((s.channel k).phase = .runningLatched →
          exec (.startChannel f (BitVec.ofNat 8 k.val)) s =
            .next ((s.setChannel k { s.channel k with
              collapsed := countUp 255 (s.channel k).collapsed }).answered f .done [])))

/-- ABORT_CHANNEL while no grant holds the array: an IDLE channel stands, an ARMED one becomes IDLE, and a run stops
with an ABORTED notice to the report set, its latch counted in collapsed (R129, R131). -/
def Obligations.AbortChannelStopsRun : Prop :=
  ∀ (f : Frame) (s : State), s.serves f.port → f.bits = 8 * 3 →
    (∀ n : Byte, 4 ≤ n.toNat → exec (.abortChannel f n) s = .next (s.answered f .badParameter [])) ∧
    ∀ (k : ChannelId) (e : Channel), s.channel k = e →
      (e.owner ≠ .owned f.port →
        exec (.abortChannel f (BitVec.ofNat 8 k.val)) s = .next (s.answered f .notOwner [])) ∧
      (e.owner = .owned f.port →
        (e.phase = .idle → exec (.abortChannel f (BitVec.ofNat 8 k.val)) s = .next (s.answered f .done [])) ∧
        (e.phase = .armed →
          exec (.abortChannel f (BitVec.ofNat 8 k.val)) s =
            .next ((s.setChannel k { e with phase := .idle }).answered f .done [])) ∧
        (e.phase = .running ∨ e.phase = .runningLatched →
          exec (.abortChannel f (BitVec.ofNat 8 k.val)) s =
            .next (((s.setChannel k { e with phase := .idle, collapsed := 0 }).postTo e.config.report
              (runNotice k 4 e.config.priority e.copied (discarded e) e.runsLeft)).answered f .done [])))

/-- The completion of a segment of channel `k`. Short of the length it adds its size to copied. At the length the run
ends: runs left falls, a DONE notice goes to the report set as notify and exhaustion ask, and the state becomes IDLE,
ARMED or, from a latch, a new run. A refused segment ends the run with FAULT (R122, R126, R128 to R130). The notice is
posted at once, or kept to be posted after the next grant's indications (R111, log entry 23). -/
def Obligations.SegmentCompletionAndRunEnds : Prop :=
  ∀ (s : State) (k : ChannelId) (e : Channel) (n : Nat), s.channel k = e →
    (e.copied + n < e.config.length →
      ∀ post, s.segmentCompletes k (some n) post = s.setChannel k { e with copied := e.copied + n }) ∧
    (e.config.length ≤ e.copied + n →
      (spent e.runsLeft = .count 0 →
        completesWith s k (some n)
          (s.setChannel k { e with copied := e.copied + n, runsLeft := .count 0, collapsed := 0, phase := .idle })
          e.config.report (runNotice k 3 e.config.priority (e.copied + n) (discarded e) (.count 0))) ∧
      (spent e.runsLeft ≠ .count 0 →
        ∃ after : Channel,
          (e.phase = .runningLatched → after.phase = .running ∧ after.copied = 0) ∧
          (e.phase ≠ .runningLatched → after.phase = .armed ∧ after.copied = e.copied + n) ∧
          after.owner = e.owner ∧ after.config = e.config ∧ after.runsLeft = spent e.runsLeft ∧
          (e.config.notify = .eachRun → after.collapsed = 0 ∧
            completesWith s k (some n) (s.setChannel k after) e.config.report
              (runNotice k 1 e.config.priority (e.copied + n) e.collapsed (spent e.runsLeft))) ∧
          (e.config.notify = .lastRun → after.collapsed = e.collapsed ∧
            ∀ post, s.segmentCompletes k (some n) post = s.setChannel k after))) ∧
    completesWith s k none
      (s.setChannel k { e with
        runsLeft := spent e.runsLeft
        collapsed := 0
        phase := if spent e.runsLeft = .count 0 then .idle else .armed }) e.config.report
      (runNotice k (if spent e.runsLeft = .count 0 then 10 else 8) e.config.priority e.copied (discarded e)
        (spent e.runsLeft))

/-! ### Memory requests and the array -/

/-- What the four target bytes name (R9, Table 9-3). A memory request that passes the checks at taking shows PENDING
and waits for its grant with its claim raised; bytes above the width of a value are ignored. One refused at taking
completes at once, raises no claim and reaches no byte: BAD_PARAMETER for a size, width or target out of its values,
then OUT_OF_RANGE for an ABSOLUTE target that leaves the array (R9, R10, R160); that BAD_PARAMETER wins where both hold
is the model's choice (log entry 26). -/
def Obligations.MemoryRequestsTaken : Prop :=
  ((∀ (address : Half) (x : Byte), target? ⟨0, halfLo address, halfHi address, x⟩ = some (.absolute address.toNat)) ∧
   (∀ (a : AnchorId) (offset : Half),
     target? ⟨1, BitVec.ofNat 8 a.val, halfLo offset, halfHi offset⟩ = some (.anchored a offset.toNat)) ∧
   (∀ (c : CursorId) (x : Byte),
     target? ⟨2, BitVec.ofNat 8 c.val, 0, x⟩ = some (.cursor c .at) ∧
     target? ⟨2, BitVec.ofNat 8 c.val, 1, x⟩ = some (.cursor c .postAdvance) ∧
     target? ⟨2, BitVec.ofNat 8 c.val, 2, x⟩ = some (.cursor c .preRetreat)) ∧
   ∀ t : TargetBytes,
     3 ≤ t.mode.toNat ∨ (t.mode = 1 ∧ 32 ≤ t.b0.toNat) ∨ (t.mode = 2 ∧ (4 ≤ t.b0.toNat ∨ 3 ≤ t.b1.toNat)) →
       target? t = none) ∧
  (∀ (f : Frame) (bytes : TargetBytes) (t : Target) (s : State), s.takes f.port → target? bytes = some t →
     (∀ size : Byte, 1 ≤ size.toNat → size.toNat ≤ 16 →
       (∀ address, t = .absolute address → address + size.toNat ≤ 32768) →
         (f.bits = 8 * 7 →
           exec (.read f bytes size) s = .next (inFlight s f (.waiting ⟨t, .read size.toNat⟩))) ∧
         ∀ data : List Byte, data.length = size.toNat → f.bits = 8 * (7 + size.toNat) →
           exec (.write f bytes size data) s = .next (inFlight s f (.waiting ⟨t, .write data⟩))) ∧
     ∀ width : Width, (∀ address, t = .absolute address → address + width.bytes ≤ 32768) →
       (∀ expected new : Quad, f.bits = 8 * 15 →
         exec (.exchange f bytes (BitVec.ofNat 8 width.bytes) expected new) s =
           .next (inFlight s f (.waiting ⟨t, .exchange width (expected.toNat % 256 ^ width.bytes)
             (new.toNat % 256 ^ width.bytes)⟩))) ∧
       ∀ addend : Quad, f.bits = 8 * 11 →
         exec (.fetchAdd f bytes (BitVec.ofNat 8 width.bytes) addend) s =
           .next (inFlight s f (.waiting ⟨t, .fetchAdd width (addend.toNat % 256 ^ width.bytes)⟩))) ∧
  ∀ (f : Frame) (bytes : TargetBytes) (s : State), s.takes f.port →
    (∀ size : Byte, target? bytes = none ∨ size.toNat = 0 ∨ 16 < size.toNat →
      (f.bits = 8 * 7 → exec (.read f bytes size) s = .next (s.answered f .badParameter [])) ∧
      ∀ data : List Byte, data.length = writeDataLength size → f.bits = 8 * (7 + writeDataLength size) →
        exec (.write f bytes size data) s = .next (s.answered f .badParameter [])) ∧
    (∀ width : Byte, target? bytes = none ∨ (width ≠ 1 ∧ width ≠ 2 ∧ width ≠ 4) →
      (∀ expected new : Quad, f.bits = 8 * 15 →
        exec (.exchange f bytes width expected new) s = .next (s.answered f .badParameter [])) ∧
      ∀ addend : Quad, f.bits = 8 * 11 →
        exec (.fetchAdd f bytes width addend) s = .next (s.answered f .badParameter [])) ∧
    ∀ address : Nat, target? bytes = some (.absolute address) →
      (∀ size : Byte, 1 ≤ size.toNat → size.toNat ≤ 16 → 32768 < address + size.toNat →
        (f.bits = 8 * 7 → exec (.read f bytes size) s = .next (s.answered f .outOfRange [])) ∧
        ∀ data : List Byte, data.length = size.toNat → f.bits = 8 * (7 + size.toNat) →
          exec (.write f bytes size data) s = .next (s.answered f .outOfRange [])) ∧
      ∀ width : Width, 32768 < address + width.bytes →
        (∀ expected new : Quad, f.bits = 8 * 15 →
          exec (.exchange f bytes (BitVec.ofNat 8 width.bytes) expected new) s =
            .next (s.answered f .outOfRange [])) ∧
        ∀ addend : Quad, f.bits = 8 * 11 →
          exec (.fetchAdd f bytes (BitVec.ofNat 8 width.bytes) addend) s = .next (s.answered f .outOfRange [])

/-- The arbiter grants the first requester with a claim pending in circular order from the pointer, and nothing while
the array is busy or the part is not ready; a requester whose claim waits comes strictly nearer to the pointer, in that
order of five, at every grant to another (R5, R6). A memory request is granted exactly when the arbiter chooses its
port, and a segment exactly when it chooses the copy engine (R6). The engine chooses the first channel with bytes to
move in circular order from the engine pointer (R124). -/
def Obligations.GrantsInCircularOrder : Prop :=
  ((∀ (s : State) (p : PortId), s.claims ⟨p.val, by omega⟩ = true ↔
     ∃ r, (s.port p).inFlight = some (.waiting r)) ∧
   (∀ s : State, s.claims 4 = true ↔ ∃ k : ChannelId,
     ((s.channel k).phase = .running ∨ (s.channel k).phase = .runningLatched) ∧
       (s.channel k).copied < (s.channel k).config.length) ∧
   (∀ s : State, s.ready = false ∨ s.grant.isSome = true → s.arbiterChoice = none) ∧
   (∀ (s : State) (r : Requester), s.ready = true → s.grant = none →
     (s.arbiterChoice = some r ↔
       s.claims r = true ∧ ∀ x : Requester, (x - s.pointer).val < (r - s.pointer).val → s.claims x = false)) ∧
   (∀ (s : State) (r x : Requester), s.arbiterChoice = some r → s.claims x = true → x ≠ r →
     (x - (r + 1)).val < (x - s.pointer).val) ∧
   ∀ (s : State) (p : PortId) (r : MemoryRequest), s.memoryChoice = some (p, r) ↔
     s.arbiterChoice = some ⟨p.val, by omega⟩ ∧ (s.port p).inFlight = some (.waiting r)) ∧
  ∀ (s : State) (k : ChannelId),
    (s.engineChoice = some k ↔
      (s.channel k).hasBytes = true ∧
        ∀ j : ChannelId, (j - s.enginePointer).val < (k - s.enginePointer).val → (s.channel j).hasBytes = false) ∧
    (s.segmentChoice = some k ↔ s.arbiterChoice = some 4 ∧ s.engineChoice = some k) ∧
    ((s.channel k).hasBytes = true ↔
      ((s.channel k).phase = .running ∨ (s.channel k).phase = .runningLatched) ∧
        (s.channel k).copied < (s.channel k).config.length)

/-- When a write is held: by a run hold when it touches the source range of another channel in a run with source hold,
by a watch hold when it touches the range of an enabled holding watch that does not permit the writer (R58, R66,
R127). -/
def Obligations.HoldsOfWrites : Prop :=
  ∀ (s : State) (writer : Actor) (addrs : List Nat),
    (s.runHeld writer addrs = true ↔
      ∃ k : ChannelId, writer ≠ .channel k ∧ (s.channel k).config.sourceHold = true ∧
        ((s.channel k).phase = .running ∨ (s.channel k).phase = .runningLatched) ∧
        ∃ a ∈ addrs, (s.channel k).config.source ≤ a ∧
          a < (s.channel k).config.source + (s.channel k).config.length) ∧
    (s.watchHeld writer addrs = true ↔
      ∃ w : WatchId, (s.watch w).config.enabled = true ∧ (s.watch w).config.hold = true ∧
        touchesWatch (s.watch w).config addrs ∧
        (s.watch w).config.permit.getLsbD
          (match writer with | .port p => p.val | .channel k => 4 + k.val) = false)

/-- What the presentation of a performed access leaves of each watch: its hit count, last outcome and countdown; the
configuration, owner and subscribers of every watch stand, and so does everything but watches, channels and ports
(R70 to R72, R74 to R76). -/
def Obligations.MatchingUpdatesWatches : Prop :=
  ∀ (s : State) (pr : Presentation),
    (∀ (w : WatchId) (e : Watch), s.watch w = e →
      (e.config.enabled = false → (s.matchAll pr).watch w = e) ∧
      (e.config.enabled = true →
        (s.matchAll pr).watch w =
          { e with
            hits := if indicates pr e s.array then countUp 65535 e.hits else e.hits
            lastOutcome :=
              if pr.write = true ∧
                  ∃ a ∈ pr.addrs, e.config.start ≤ a ∧ a < e.config.start + e.config.width.bytes then
                e.config.condition.holds (valueAt s.array e.config.start e.config.width.bytes) e.config.reference
              else e.lastOutcome
            quiet :=
              if pr.write = true ∧ touchesWatch e.config pr.addrs ∧ e.config.kinds.getLsbD 3 = true then .running
              else e.quiet
            countdown :=
              if pr.write = true ∧ touchesWatch e.config pr.addrs ∧ e.config.kinds.getLsbD 3 = true then
                e.config.quietLimit
              else e.countdown })) ∧
    { s.matchAll pr with watches := s.watches, channels := s.channels, ports := s.ports } = s

/-- Each port's queue after a presentation: the notices of the indicating watches it hears, posted in ascending watch
number (R73, R79, R101). Each channel after it: one trigger where some watch's ALTER or COMPARE indication names it and
the actor is another, else none (R77, R120). -/
def Obligations.MatchingPostsAndTriggers : Prop :=
  (∀ (s : State) (pr : Presentation) (q : PortId),
     (s.matchAll pr).port q =
       (List.finRange 16).foldl (fun x w =>
         if indicates pr (s.watch w) s.array ∧ hears q (s.watch w) pr.actor then
           x.post (watchNotice w pr (s.watch w) s.array) else x) (s.port q)) ∧
  ∀ (s : State) (pr : Presentation) (k : ChannelId) (e : Channel), s.channel k = e →
    ((∃ w : WatchId, indicates pr (s.watch w) s.array ∧ kindSet pr (s.watch w) s.array &&& 5 ≠ 0 ∧
        (s.watch w).config.trigger = some k ∧ pr.actor ≠ .channel k) →
      (s.matchAll pr).channel k =
        match e.phase with
        | .idle => e
        | .armed => { e with phase := .running, copied := 0 }
        | .running => { e with phase := .runningLatched }
        | .runningLatched => { e with collapsed := countUp 255 e.collapsed }) ∧
    ((∀ w : WatchId, indicates pr (s.watch w) s.array → kindSet pr (s.watch w) s.array &&& 5 ≠ 0 →
        (s.watch w).config.trigger = some k → pr.actor = .channel k) →
      (s.matchAll pr).channel k = e)

/-- A channel's run-end notice and the watch indications of the array's next grant are taken in either order (R111). A
segment's completion posts its run-end notice, or keeps it; the grant that comes next then posts a kept notice after all
its own indications and before its access completion, and a grant that the arbiter would not make posts it alone. The
command that says which is the model's (log entry 23). -/
def Obligations.RunEndNoticeTakenInEitherOrder : Prop :=
  (∀ (s u : State) (k : ChannelId) (moved : Option Nat) (set : BitVec 4) (n : Notice), s.lapsesDue = [] →
     s.lateNotice = none → s.grant = some (.segment k moved) →
     completesWith { s with grant := none } k moved u set n →
       exec (.segmentGrant (.ends .atOnce)) s = .next (u.postTo set n) ∧
       exec (.segmentGrant (.ends .afterNext)) s = .next { u with lateNotice := some ⟨set, n⟩ }) ∧
  ∀ (s t : State) (l : LateNotice), t = { s with lateNotice := none } → t.settled → t.grant = none →
    s.lateNotice = some l →
    (∀ u : State, t.memoryChoice ≠ none → exec (.memoryGrant .begins) t = .next u →
      exec (.memoryGrant .begins) s = .next (u.postTo l.ports l.notice) ∧
      exec (.memoryGrant .whole) s = exec (.memoryGrant .ends) (u.postTo l.ports l.notice)) ∧
    (∀ u : State, t.segmentChoice ≠ none → exec (.segmentGrant .begins) t = .next u →
      exec (.segmentGrant .begins) s = .next (u.postTo l.ports l.notice) ∧
      ∀ post, exec (.segmentGrant (.whole post)) s =
        exec (.segmentGrant (.ends post)) (u.postTo l.ports l.notice)) ∧
    (t.memoryChoice = none → exec (.memoryGrant .whole) s = .next (t.postTo l.ports l.notice)) ∧
    (t.segmentChoice = none → ∀ post, exec (.segmentGrant (.whole post)) s = .next (t.postTo l.ports l.notice))

/-- A granted memory request that passes resolution and holds is performed, moves its cursor, is matched, and completes,
in that order under the one grant (R6, R7, R16 to R18, R38). -/
def Obligations.GrantPerformsInSteps : Prop :=
  ∀ (s : State) (p : PortId) (r : MemoryRequest) (place : Place), Granted s p r place →
    (r.op.writes = true → s.runHeld (.port p) place.addrs = false ∧ s.watchHeld (.port p) place.addrs = false) →
      exec (.memoryGrant .whole) s =
        .next (((({ afterPort s p with array := (r.op.perform s.array place.addrs).array } : State).storeMotion p
          place.motion).matchAll ⟨.port p, place.addrs, place.addrs.headD 0, r.op.size,
            (r.op.perform s.array place.addrs).write⟩).complete p (r.op.perform s.array place.addrs).code
              (r.op.perform s.array place.addrs).data)

/-- The result of each memory request at its grant, and every byte of the array after it: READ and a failed EXCHANGE
change none, a WRITE, a stored EXCHANGE and a FETCH_ADD change the bytes of their place alone (R11 to R15, R17, R18).
The cursor of a CURSOR target keeps its anchor and takes the offset that its motion stores; every other cursor of every
port stands, and all stand where the target is no cursor (R38). -/
def Obligations.GrantResultsAndBytes : Prop :=
  ∀ (s : State) (p : PortId) (r : MemoryRequest) (place : Place), Granted s p r place → s.arrayListed →
    place.addrs.Nodup → place.addrs.length = r.op.size →
    (r.op.writes = true → s.runHeld (.port p) place.addrs = false ∧ s.watchHeld (.port p) place.addrs = false) →
      ∃ (t : State) (old : List Byte), exec (.memoryGrant .whole) s = .next t ∧
        old = place.addrs.map s.array.read ∧
        (∀ a, a ∉ place.addrs → t.array.read a = s.array.read a) ∧
        t.anchors = s.anchors ∧ (t.port p).inFlight = none ∧ (t.port p).slot.tag = (s.port p).slot.tag ∧
        (∀ (c : CursorId) (offset : Nat), place.motion = some (c, offset) →
          ∃ b, (s.port p).cursor c = some b ∧ (t.port p).cursor c = some ⟨b.anchor, offset⟩) ∧
        (∀ (q : PortId) (c : CursorId), (q = p → ∀ offset, place.motion ≠ some (c, offset)) →
          (t.port q).cursor c = (s.port q).cursor c) ∧
        (place.motion = none → ∀ (q : PortId) (c : CursorId), (t.port q).cursor c = (s.port q).cursor c) ∧
        (∀ size, r.op = .read size →
          (t.port p).slot.code = .done ∧ (t.port p).slot.data = old ∧ t.array = s.array) ∧
        (∀ data, r.op = .write data →
          (t.port p).slot.code = .done ∧ (t.port p).slot.data = [] ∧ place.addrs.map t.array.read = data) ∧
        (∀ width expected new, r.op = .exchange width expected new →
          (t.port p).slot.data = old ∧
          (leValue old = expected →
            (t.port p).slot.code = .done ∧ place.addrs.map t.array.read = leBytes width.bytes new) ∧
          (leValue old ≠ expected → (t.port p).slot.code = .compareFailed ∧ t.array = s.array)) ∧
        ∀ width addend, r.op = .fetchAdd width addend →
          (t.port p).slot.code = .done ∧ (t.port p).slot.data = old ∧
            place.addrs.map t.array.read =
              leBytes width.bytes ((leValue old + addend) % 2 ^ (8 * width.bytes))

/-- A write that a run hold refuses completes RUN_HOLD and does nothing else; one that a watch hold refuses completes
WATCH_HOLD, stores no byte and leaves its cursor, and each watch that took part counts a hit and posts BLOCKED
(R16, R65 to R67). -/
def Obligations.HeldWriteStoresNothing : Prop :=
  ∀ (s : State) (p : PortId) (r : MemoryRequest) (place : Place), Granted s p r place → r.op.writes = true →
    (s.runHeld (.port p) place.addrs = true →
      exec (.memoryGrant .whole) s = .next ((afterPort s p).complete p .runHold [])) ∧
    (s.runHeld (.port p) place.addrs = false → s.watchHeld (.port p) place.addrs = true →
      ∃ t : State, exec (.memoryGrant .whole) s = .next (t.complete p .watchHold []) ∧
        { t with watches := s.watches, ports := s.ports } = afterPort s p ∧
        (∀ w : WatchId, t.watch w =
          if (s.watch w).refuses (.port p) place.addrs = true then
            { s.watch w with hits := countUp 65535 (s.watch w).hits } else s.watch w) ∧
        ∀ q : PortId, t.port q =
          (List.finRange 16).foldl (fun x w =>
            if (s.watch w).refuses (.port p) place.addrs = true ∧ hears q (s.watch w) (.port p) then
              x.post ⟨.watch w, 16, (s.watch w).config.priority, some (.port p), some (place.addrs.headD 0),
                some r.op.size, none, none⟩ else x) (s.port q))

/-- A request that resolution refuses completes with that outcome and moves nothing; only NULL_ANCHOR through another
port's anchor posts a notice, NULL_REF to the owner (R16, R30, R33). -/
def Obligations.UnresolvedRequestMovesNothing : Prop :=
  ∀ (s : State) (p : PortId) (r : MemoryRequest) (code : ResultCode), Unresolved s p r code →
    (code ≠ .nullAnchor → exec (.memoryGrant .whole) s = .next ((afterPort s p).complete p code [])) ∧
    ∀ (a : AnchorId) (offset : Nat), r.target = .anchored a offset → code = .nullAnchor →
      ((∀ q, (s.anchor a).owner = .owned q → q = p) →
        exec (.memoryGrant .whole) s = .next ((afterPort s p).complete p code [])) ∧
      ∀ q : PortId, (s.anchor a).owner = .owned q → q ≠ p →
        exec (.memoryGrant .whole) s =
          .next (((afterPort s p).modPort q (fun x =>
            x.post ⟨.anchor a, 1, 5, some (.port p), none, some r.op.size, none, none⟩)).complete p code [])

/-- The addresses of a request that resolution admits exist, are different from each other, and are as many as the
request's bytes (R1, R10, R31, R32, R36, R37). -/
def Obligations.ResolvedAddressesExist : Prop :=
  ∀ (s : State) (p : PortId) (r : MemoryRequest) (place : Place), s.inBounds →
    (s.port p).inFlight = some (.waiting r) → s.resolve p r = .ok place →
      inArray place.addrs = true ∧ place.addrs.Nodup ∧ place.addrs.length = r.op.size

/-- A grant given in two commands, its beginning and its access completion, does what it does in one (the model's
choice, log entry 4); a grant that the arbiter would not make does nothing (log entry 3). -/
def Obligations.GrantInTwoCommands : Prop :=
  ∀ s : State, s.settled → s.grant = none →
    (∀ t, exec (.memoryGrant .begins) s = .next t → exec (.memoryGrant .ends) t = exec (.memoryGrant .whole) s) ∧
    (∀ t post, exec (.segmentGrant .begins) s = .next t →
      exec (.segmentGrant (.ends post)) t = exec (.segmentGrant (.whole post)) s) ∧
    (s.memoryChoice = none → exec (.memoryGrant .whole) s = .next s) ∧
    (s.segmentChoice = none → ∀ post, exec (.segmentGrant (.whole post)) s = .next s)

/-- A granted segment that no hold refuses copies its bytes, is presented as a read and then as a write of the
channel, and completes; the pointer names P0 and the engine pointer the next channel. A segment that a hold refuses
moves no byte and ends the run with a fault: under RUN_HOLD with nothing else, under WATCH_HOLD after the BLOCKED
indications of the watches that took part (R6, R69, R123 to R126, R130). -/
def Obligations.SegmentPerformsOrIsHeld : Prop :=
  (∀ (s : State) (k : ChannelId) (e : Channel) (n : Nat) (source destination : List Nat) (post : RunEndPost),
     SegmentGranted s k → s.channel k = e → n = min 16 (e.config.length - e.copied) →
     source = List.range' (e.config.source + e.copied) n →
     destination = List.range' (e.config.destination + e.copied) n →
     s.runHeld (.channel k) destination = false → s.watchHeld (.channel k) destination = false →
       exec (.segmentGrant (.whole post)) s =
         .next (((({ s with
           pointer := 0
           enginePointer := k + 1
           array := s.array.writeAll destination (s.array.readAll source) } : State).matchAll
             ⟨.channel k, source, source.headD 0, n, false⟩).matchAll
             ⟨.channel k, destination, destination.headD 0, n, true⟩).segmentCompletes k (some n) post)) ∧
  ∀ (s : State) (k : ChannelId) (e : Channel) (n : Nat) (destination : List Nat) (post : RunEndPost),
    SegmentGranted s k → s.channel k = e → n = min 16 (e.config.length - e.copied) →
    destination = List.range' (e.config.destination + e.copied) n →
      (s.runHeld (.channel k) destination = true →
        exec (.segmentGrant (.whole post)) s =
          .next (State.segmentCompletes { s with pointer := 0, enginePointer := k + 1 } k none post)) ∧
      (s.runHeld (.channel k) destination = false → s.watchHeld (.channel k) destination = true →
        ∃ t : State, exec (.segmentGrant (.whole post)) s = .next (t.segmentCompletes k none post) ∧
          { t with watches := s.watches, ports := s.ports } = { s with pointer := 0, enginePointer := k + 1 } ∧
          (∀ w : WatchId, t.watch w =
            if (s.watch w).refuses (.channel k) destination = true then
              { s.watch w with hits := countUp 65535 (s.watch w).hits } else s.watch w) ∧
          ∀ q : PortId, t.port q =
            (List.finRange 16).foldl (fun x w =>
              if (s.watch w).refuses (.channel k) destination = true ∧
                  (s.watch w).subscribers.getLsbD q.val = true then
                x.post ⟨.watch w, 16, (s.watch w).config.priority, some (.channel k), some (destination.headD 0),
                  some n, none, none⟩ else x) (s.port q))

/-- The bytes a segment moves: each destination byte of it receives the value its source byte held, and no other byte of
the array changes (R123, R125, R126). -/
def Obligations.SegmentMovesBytes : Prop :=
  ∀ (s : State) (k : ChannelId) (e : Channel) (n : Nat) (post : RunEndPost), SegmentGranted s k → s.arrayListed →
    s.channel k = e → n = min 16 (e.config.length - e.copied) →
    s.runHeld (.channel k) (List.range' (e.config.destination + e.copied) n) = false →
    s.watchHeld (.channel k) (List.range' (e.config.destination + e.copied) n) = false →
      ∃ t : State, exec (.segmentGrant (.whole post)) s = .next t ∧
        (∀ i, i < n → t.array.read (e.config.destination + e.copied + i) =
          s.array.read (e.config.source + e.copied + i)) ∧
        ∀ a, a < e.config.destination + e.copied ∨ e.config.destination + e.copied + n ≤ a →
          t.array.read a = s.array.read a

/-! ### Ticks, lapses and deferred requests -/

/-- A tick counts down every enabled RUNNING watch; a countdown that goes from 1 to 0 is a lapse, due in ascending watch
number. A HALTED time base raises none, and a tick during a grant waits (R83, R86). The list of lapses due is the
model's (log entry 5), and so is the place of a waiting tick behind what waits already (log entry 7). -/
def Obligations.TickCountsDown : Prop :=
  ∀ s : State, s.settled →
    (s.ticking = false → exec .tick s = .next s) ∧
    (s.ticking = true → s.grant.isSome = true →
      exec .tick s = .next { s with deferredOrder := s.deferredOrder ++ [.tick] }) ∧
    (s.ticking = true → s.grant = none → exec .tick s = .next (ticked s))

/-- A lapse: the watch is LAPSED at countdown 0, counts a hit, posts QUIET to each of its subscribers, and triggers its
channel unless the tick has triggered it already (R86, R87). -/
def Obligations.LapseMakesQuietIndication : Prop :=
  ∀ (s : State) (w : WatchId) (rest : List WatchId) (e : Watch), s.lapsesDue = w :: rest → s.watch w = e →
    ∃ t : State,
      t = { (s.setWatch w { e with quiet := .lapsed, countdown := 0, hits := countUp 65535 e.hits }).postTo
        e.subscribers ⟨.watch w, 8, e.config.priority, none, none, none, none, none⟩ with lapsesDue := rest } ∧
      (e.config.trigger = none → exec .lapse s = .next t) ∧
      ∀ k : ChannelId, e.config.trigger = some k →
        (s.tickTriggered.getLsbD k.val = true → exec .lapse s = .next t) ∧
        (s.tickTriggered.getLsbD k.val = false →
          exec .lapse s =
            .next { t.setChannel k (s.channel k).trigger with tickTriggered := s.tickTriggered ||| 1#4 <<< k.val })

/-- A table, port or ownership request taken while a grant holds the array, an ATTACH on a DETACHED port among them,
stays PENDING until an access completion: that of its own channel's segment for an ABORT_CHANNEL, that of the grant for
any other (R132, R143, R160). The place of the request in the order in which requests and ticks came is kept: between
ownership requests that is R55; for table and port requests, for an abort and against ticks it is the model's choice
(DESIGN CHOICE, log entries 6, 7 and 27). -/
def Obligations.RequestsWaitForOpenGrant : Prop :=
  ∀ (i : Instr) (f : Frame) (code : Byte) (r : Request) (g : Grant) (s : State),
    requestOf i = some (f, code, r) → s.frameOpen f.port → (s.port f.port).inFlight = none →
    ((s.port f.port).mode = .attached ∨ r = .attach) → s.grant = some g → frameFits code 0 f.bits = true →
      (∀ (k : ChannelId) (moved : Option Nat), g = .segment k moved → r = .abortChannel (BitVec.ofNat 8 k.val) →
        exec i s = .next { Sys2Proof.Claims.inFlight s f (.afterSegment k) with
          deferredOrder := s.deferredOrder ++ [.request f.port] }) ∧
      ((∀ (k : ChannelId) (moved : Option Nat), g = .segment k moved → r ≠ .abortChannel (BitVec.ofNat 8 k.val)) →
        exec i s = .next { Sys2Proof.Claims.inFlight s f (.deferred r) with
          deferredOrder := s.deferredOrder ++ [.request f.port] })

/-- DEFERRED_REQUEST_APPLY, where no lapse is due: the access completion of a grant that still holds the array, a port's
access or a segment of a channel, then the request with its outcome, after the requests and ticks that came before it
(R7, R160). Between ownership requests that order is R55; elsewhere it is the model's choice (DESIGN CHOICE, log entries
6 and 7; R90 admits either order of a tick and a table request). R110, R112, R135 and R150 leave open the order of the
request and a run-end notice: that the notice of a run end which this command makes itself comes before the request, and
a notice that SEGMENT_GRANT kept after it, is the model's choice (DESIGN CHOICE, log entry 23). An abort that waits for
its segment goes on waiting, which gives one order of R110, R111 and R134 (log entries 27, DESIGN CHOICE, and 28,
DEDUCED). A port with no deferred request has nothing to apply (log entry 3). -/
def Obligations.DeferredRequestIsApplied : Prop :=
  ∀ (p : PortId) (s : State), s.lapsesDue = [] →
    (∀ (r : Request) (rest : List Deferred), (s.port p).inFlight = some (.deferred r) →
      s.deferredOrder = .request p :: rest →
      (s.grant = none → exec (.deferredRequestApply p) s = .next (applied p r { s with deferredOrder := rest })) ∧
      (∀ (o : PortId) (code : ResultCode) (data : List Byte), s.grant = some (.access o code data) → o ≠ p →
        exec (.deferredRequestApply p) s =
          .next (applied p r (({ s with grant := none, deferredOrder := rest } : State).complete o code data))) ∧
      ∀ (k : ChannelId) (moved : Option Nat), s.grant = some (.segment k moved) →
        exec (.deferredRequestApply p) s =
          .next (applied p r
            (({ s with grant := none, deferredOrder := rest } : State).segmentCompletes k moved .atOnce))) ∧
    (∀ (q : PortId) (rest : List Deferred) (r r' : Request), (s.port p).inFlight = some (.deferred r) →
      (s.port q).inFlight = some (.deferred r') → q ≠ p → s.deferredOrder = .request q :: rest → s.grant = none →
        ∃ t, exec (.deferredRequestApply q) s = .next t ∧
          exec (.deferredRequestApply p) s = exec (.deferredRequestApply p) t) ∧
    (∀ (rest : List Deferred) (r : Request), (s.port p).inFlight = some (.deferred r) →
      s.deferredOrder = .tick :: rest → s.grant = none →
        exec (.deferredRequestApply p) s = exec (.deferredRequestApply p) (ticked { s with deferredOrder := rest })) ∧
    (∀ (q : PortId) (k : ChannelId) (rest : List Deferred) (r : Request), (s.port p).inFlight = some (.deferred r) →
      (s.port q).inFlight = some (.afterSegment k) → s.deferredOrder = .request q :: rest →
      (∀ o code data, s.grant ≠ some (.access o code data)) →
        ∃ t, exec (.deferredRequestApply p) { s with deferredOrder := rest } = .next t ∧
          (t.port q).inFlight = some (.afterSegment k) ∧
          exec (.deferredRequestApply p) s = .next { t with deferredOrder := .request q :: t.deferredOrder }) ∧
    (s.settled → (∀ r : Request, (s.port p).inFlight ≠ some (.deferred r)) →
      exec (.deferredRequestApply p) s = .next s)

/-- ABORT_AFTER_SEGMENT: the segment that holds the array completes, with the run end it makes, and the abort is then
applied to the channel as the completion left it; at its completion DONE the channel is IDLE (R132). Where the segment
has completed already, the abort is applied alone. That this command applies the abort before everything else that
waited, whose order R110 and R111 leave open, is the model's choice (DESIGN CHOICE, log entry 27), and so is that its
ABORTED notice comes after the notice of a run end that this command makes and before one that SEGMENT_GRANT kept (log
entry 23). -/
def Obligations.AbortWaitsForSegment : Prop :=
  ∀ (p : PortId) (k : ChannelId) (s b : State), s.lapsesDue = [] → (s.port p).inFlight = some (.afterSegment k) →
    b = { s with grant := none, deferredOrder := s.deferredOrder.erase (.request p) } →
      (∀ moved : Option Nat, s.grant = some (.segment k moved) → (s.channel k).owner = .owned p →
        ∃ t u : State, t = b.segmentCompletes k moved .atOnce ∧
          exec (.abortAfterSegment p) s = .next (u.complete p .done []) ∧ (u.channel k).phase = .idle ∧
          ((t.channel k).inRun = false → u = t.setChannel k { t.channel k with phase := .idle }) ∧
          ((t.channel k).inRun = true →
            u = (t.setChannel k { t.channel k with phase := .idle, collapsed := 0 }).postTo (t.channel k).config.report
              (runNotice k 4 (t.channel k).config.priority (t.channel k).copied (discarded (t.channel k))
                (t.channel k).runsLeft))) ∧
      (s.grant = none →
        exec (.abortAfterSegment p) s = .next (applied p (.abortChannel (BitVec.ofNat 8 k.val)) b))

/-! ### Power and device reset -/

/-- The values of power-on reset, block by block (R2, R4, R8, R23, R57, R83, R114, R116, R124, R151, R155). The queue of
commands, the level of nRESET and the lists of what is due are the model's (log entries 5, 6, 7, 17 and 23). -/
def Obligations.ResetValues : Prop :=
  State.reset.ready = false ∧ State.reset.fill = .notFilled ∧ State.reset.ticking = false ∧
  State.reset.pointer = 0 ∧ State.reset.grant = none ∧ State.reset.enginePointer = 0 ∧ State.reset.pending = [] ∧
  State.reset.lapsesDue = [] ∧ State.reset.deferredOrder = [] ∧
  State.reset.lateNotice = none ∧
  (∀ a : AnchorId, State.reset.anchor a = ⟨.free, none, false, .shared⟩) ∧
  (∀ w : WatchId, State.reset.watch w =
    ⟨.free, ⟨false, 0, 0, 0, false, 0, .one, .equal, 0, .edge, 1, 4, false, none⟩, 0, false, .stopped, 0, 0⟩) ∧
  (∀ k : ChannelId, State.reset.channel k =
    ⟨.free, ⟨0, 0, 0, false, 1, .eachRun, 4, 0⟩, .count 0, .idle, 0, 0⟩) ∧
  ∀ p : PortId,
    (State.reset.port p).mode = .detached ∧ (State.reset.port p).threshold = 1 ∧ (State.reset.port p).wake = 1 ∧
    (State.reset.port p).stack = [] ∧ (State.reset.port p).queue = [] ∧ (State.reset.port p).nextSeq = 0 ∧
    (State.reset.port p).overrun = false ∧ (State.reset.port p).busyRefused = false ∧
    (State.reset.port p).frameFault = false ∧ (State.reset.port p).slot = ⟨0, .nothing, []⟩ ∧
    (State.reset.port p).inFlight = none ∧ (State.reset.port p).attention = false ∧
    ∀ c : CursorId, (State.reset.port p).cursor c = none

/-- POWER_ON_RESET begins the fill from the power-on values; FILL_END of a fill under way leaves every array byte 0,
sets READY and starts the time base unless nRESET is asserted; SUPPLY_LOSS loses the array and clears READY (R2, R4,
R83). The model's choices are: a FILL_END with no fill under way changes nothing (log entry 3); the array lists no byte,
so that each would read 0, before the fill end and without supply (log entry 9); a fill begun with nRESET asserted
begins and ends all the same (log entry 10); the rest of the state without supply (log entry 12); and a frame in
progress at the loss or the rise of the supply, or started without supply, which is kept as one that takes no request
(log entry 25). -/
def Obligations.PowerAndFill : Prop :=
  ∀ s : State,
    (∃ t : State, exec .powerOnReset s = .next t ∧
      { t with ports := State.reset.ports } = { State.reset with nReset := s.nReset, pending := s.pending } ∧
      ∀ p : PortId, t.port p =
        { State.reset.port p with frame := (s.port p).frame.map (fun _ => ⟨[], false, true⟩) }) ∧
    (s.supply = true → s.filling = true →
      ∃ t : State, exec .fillEnd s = .next t ∧ (∀ a, t.array.read a = 0) ∧ t.fill = .filled ∧ t.filling = false ∧
        t.ready = !s.nReset ∧ t.ticking = !s.nReset ∧
        { t with fill := s.fill, filling := s.filling, array := s.array, ticking := s.ticking } = s) ∧
    (s.supply = false ∨ s.filling = false → exec .fillEnd s = .next s) ∧
    (∃ t : State, exec .supplyLoss s = .next t ∧
      { t with ports := State.reset.ports } =
        { State.reset with supply := false, filling := false, nReset := s.nReset, pending := s.pending } ∧
      ∀ p : PortId, t.port p =
        { State.reset.port p with frame := (s.port p).frame.map (fun _ => ⟨[], false, true⟩) }) ∧
    (s.supply = false → ∀ p : PortId,
      exec (.frameStart p) s = .next (s.modPort p (fun q => { q with frame := some ⟨[], false, true⟩ })) ∧
      (∀ (i : Instr) (f : Frame) (code : Byte) (params : List Byte), requestBytes i = some (f, code, params) →
        f.port = p → exec i s = .next (s.modPort p (fun q => { q with frame := none }))) ∧
      (∀ (f : Frame) (code : Byte), f.port = p →
        exec (.unknownCode f code) s = .next (s.modPort p (fun q => { q with frame := none }))) ∧
      (∀ bits : Nat, exec (.nop p bits) s = .next (s.modPort p (fun q => { q with frame := none }))) ∧
      exec (.emptyFrame p) s = .next (s.modPort p (fun q => { q with frame := none })))

/-- NRESET_ASSERTION keeps the array bytes, the fill state and the supply, clears READY, halts the time base and takes
every other block to its reset values, with a frame in progress abandoned (R3, R4, R8, R20, R83, R114, R136, R151,
R164); NRESET_RELEASE sets READY and starts the time base where the array is filled, else starts the fill again (R3, R4,
R83). The model's choices are: an nRESET edge to the level it has changes nothing (log entry 3); an assertion while a
grant holds the array is one step (log entry 11); the record of what SDO carried is kept (log entry 14). -/
def Obligations.DeviceReset : Prop :=
  ∀ s : State, s.supply = true →
    (s.nReset = false →
      ∃ t : State, exec .nresetAssertion s = .next t ∧ t.ready = false ∧
        (∀ p : PortId, t.port p =
          { State.reset.port p with
            frame := (s.port p).frame.map (fun f => { f with abandoned := true })
            shifted := (s.port p).shifted }) ∧
        { t with ports := State.reset.ports } =
          { State.reset with
            nReset := true, filling := false, fill := s.fill, array := s.array, pending := s.pending }) ∧
    (s.nReset = true → s.fill = .filled →
      exec .nresetRelease s = .next { s with nReset := false, ticking := true } ∧
        ({ s with nReset := false, ticking := true } : State).ready = true) ∧
    (s.nReset = true → s.fill = .notFilled →
      exec .nresetRelease s = .next { s with nReset := false, filling := true } ∧
        ({ s with nReset := false, filling := true } : State).ready = false) ∧
    (s.nReset = true → exec .nresetAssertion s = .next s) ∧
    (s.nReset = false → exec .nresetRelease s = .next s)

/-! ### Invariants -/

/-- Every condition below holds right after reset. -/
def Obligations.ResetIsSafe : Prop :=
  State.reset.arrayListed ∧ State.reset.inBounds ∧ State.reset.runsSound ∧ State.reset.budgetsSound ∧
    State.reset.quietsSound ∧ State.reset.queuesBounded ∧ State.reset.queuesFolded ∧ State.reset.attentionsExact ∧
    State.reset.dozesSound ∧ State.reset.levelsInRange ∧ State.reset.detachedClean ∧ State.reset.ticksWhenReady ∧
    State.reset.quietWhenNotReady ∧ State.reset.grantSound ∧ State.reset.waitsSound

/-- Where every region, cursor, channel and waiting request lies inside the array, no step faults or is refused, every
region, cursor and channel stays inside, and the array keeps its listed form (R1, R22, R27, R117). -/
def Obligations.StepStaysInBounds : Prop :=
  ∀ s : State, s.inBounds → s.arrayListed → ∃ t, step s = .next t ∧ t.inBounds ∧ t.arrayListed

/-- No queue ever holds more than 24 records, nor two records with the same WATCH or ANCHOR source and kinds
(R94, R97). -/
def Obligations.QueuesStayBoundedAndFolded : Prop :=
  ∀ s t : State, s.queuesBounded → s.queuesFolded → step s = .next t → t.queuesBounded ∧ t.queuesFolded

/-- nATTN of each port is asserted exactly when the port is ATTACHED and its queue holds a record at or above its
threshold (R108). -/
def Obligations.AttentionStaysExact : Prop :=
  ∀ s t : State, s.attentionsExact → step s = .next t → t.attentionsExact

/-- While a port is DOZING its queue holds no record at or above its wake level, and it has no request in flight
(R146). Levels and service stacks stay in their ranges (R106, R107, R148). -/
def Obligations.DozingAndLevelsStaySound : Prop :=
  (∀ s t : State, s.dozesSound → step s = .next t → t.dozesSound) ∧
  ∀ s t : State, s.levelsInRange → step s = .next t → t.levelsInRange

/-- Runs left never exceeds the budget unless it is UNLIMITED, and is 0 only on an IDLE channel; a run moves no more
than its length, a channel that is not IDLE has a run to make, and a segment that holds the array, performed or refused,
is the next one of a channel in a run (R115, R119, R123, R126, R128, R130). -/
def Obligations.RunsStayWithinBudget : Prop :=
  (∀ s t : State, s.budgetsSound → step s = .next t → t.budgetsSound) ∧
  ∀ s t : State, s.runsSound → step s = .next t → t.runsSound

/-- The quiet state of every watch agrees with its configuration at all times (R84). -/
def Obligations.QuietStatesStaySound : Prop :=
  ∀ s t : State, s.quietsSound → step s = .next t → t.quietsSound

/-- No entry is OWNED by a DETACHED port and none is a subscriber, and a DETACHED port keeps an empty queue, first
levels and no bound cursor (R53, R64, R140). -/
def Obligations.DetachedPortsStayClean : Prop :=
  ∀ s t : State, s.detachedClean → step s = .next t → t.detachedClean

/-- While READY is clear no grant holds the array, nothing is due, every port is DETACHED with slot NONE and clear
flags, and the time base is HALTED (R4, R83, R163). A grant of a port's access goes with that port's request, and each
request that waits for an access completion has its place, once, in the order of what waits (R5, R7, R55, R160); that
order is the model's but for ownership requests (log entries 6 and 7). -/
def Obligations.NothingRunsBeforeReady : Prop :=
  (∀ s t : State, s.quietWhenNotReady → s.ticksWhenReady → step s = .next t → t.quietWhenNotReady) ∧
  (∀ s t : State, s.ticksWhenReady → step s = .next t → t.ticksWhenReady) ∧
  (∀ s t : State, s.waitsSound → s.grantSound → step s = .next t → t.waitsSound) ∧
  ∀ s t : State, s.grantSound → step s = .next t → t.grantSound
end

