-- ==== Sys2Proof/Laws/State.lean ====
section
/-! SUPPORT. What each named operation over the tables leaves of every field of the state, and the entry each lookup
finds after it. -/

namespace Sys2Proof.Machine

/-! ### Fields that stand -/

@[simp] theorem setPort_supply (s : State) (p : PortId) (q : Port) :
    (s.setPort p q).supply = s.supply := rfl
@[simp] theorem setPort_nReset (s : State) (p : PortId) (q : Port) :
    (s.setPort p q).nReset = s.nReset := rfl
@[simp] theorem setPort_fill (s : State) (p : PortId) (q : Port) :
    (s.setPort p q).fill = s.fill := rfl
@[simp] theorem setPort_filling (s : State) (p : PortId) (q : Port) :
    (s.setPort p q).filling = s.filling := rfl
@[simp] theorem setPort_ticking (s : State) (p : PortId) (q : Port) :
    (s.setPort p q).ticking = s.ticking := rfl
@[simp] theorem setPort_deferredOrder (s : State) (p : PortId) (q : Port) :
    (s.setPort p q).deferredOrder = s.deferredOrder := rfl
@[simp] theorem setPort_lapsesDue (s : State) (p : PortId) (q : Port) :
    (s.setPort p q).lapsesDue = s.lapsesDue := rfl
@[simp] theorem setPort_tickTriggered (s : State) (p : PortId) (q : Port) :
    (s.setPort p q).tickTriggered = s.tickTriggered := rfl
@[simp] theorem setPort_array (s : State) (p : PortId) (q : Port) :
    (s.setPort p q).array = s.array := rfl
@[simp] theorem setPort_pointer (s : State) (p : PortId) (q : Port) :
    (s.setPort p q).pointer = s.pointer := rfl
@[simp] theorem setPort_grant (s : State) (p : PortId) (q : Port) :
    (s.setPort p q).grant = s.grant := rfl
@[simp] theorem setPort_lateNotice (s : State) (p : PortId) (q : Port) :
    (s.setPort p q).lateNotice = s.lateNotice := rfl
@[simp] theorem setPort_anchors (s : State) (p : PortId) (q : Port) :
    (s.setPort p q).anchors = s.anchors := rfl
@[simp] theorem setPort_watches (s : State) (p : PortId) (q : Port) :
    (s.setPort p q).watches = s.watches := rfl
@[simp] theorem setPort_channels (s : State) (p : PortId) (q : Port) :
    (s.setPort p q).channels = s.channels := rfl
@[simp] theorem setPort_enginePointer (s : State) (p : PortId) (q : Port) :
    (s.setPort p q).enginePointer = s.enginePointer := rfl
@[simp] theorem setPort_pending (s : State) (p : PortId) (q : Port) :
    (s.setPort p q).pending = s.pending := rfl

@[simp] theorem modPort_supply (s : State) (p : PortId) (f : Port → Port) :
    (s.modPort p f).supply = s.supply := rfl
@[simp] theorem modPort_nReset (s : State) (p : PortId) (f : Port → Port) :
    (s.modPort p f).nReset = s.nReset := rfl
@[simp] theorem modPort_fill (s : State) (p : PortId) (f : Port → Port) :
    (s.modPort p f).fill = s.fill := rfl
@[simp] theorem modPort_filling (s : State) (p : PortId) (f : Port → Port) :
    (s.modPort p f).filling = s.filling := rfl
@[simp] theorem modPort_ticking (s : State) (p : PortId) (f : Port → Port) :
    (s.modPort p f).ticking = s.ticking := rfl
@[simp] theorem modPort_deferredOrder (s : State) (p : PortId) (f : Port → Port) :
    (s.modPort p f).deferredOrder = s.deferredOrder := rfl
@[simp] theorem modPort_lapsesDue (s : State) (p : PortId) (f : Port → Port) :
    (s.modPort p f).lapsesDue = s.lapsesDue := rfl
@[simp] theorem modPort_tickTriggered (s : State) (p : PortId) (f : Port → Port) :
    (s.modPort p f).tickTriggered = s.tickTriggered := rfl
@[simp] theorem modPort_array (s : State) (p : PortId) (f : Port → Port) :
    (s.modPort p f).array = s.array := rfl
@[simp] theorem modPort_pointer (s : State) (p : PortId) (f : Port → Port) :
    (s.modPort p f).pointer = s.pointer := rfl
@[simp] theorem modPort_grant (s : State) (p : PortId) (f : Port → Port) :
    (s.modPort p f).grant = s.grant := rfl
@[simp] theorem modPort_lateNotice (s : State) (p : PortId) (f : Port → Port) :
    (s.modPort p f).lateNotice = s.lateNotice := rfl
@[simp] theorem modPort_anchors (s : State) (p : PortId) (f : Port → Port) :
    (s.modPort p f).anchors = s.anchors := rfl
@[simp] theorem modPort_watches (s : State) (p : PortId) (f : Port → Port) :
    (s.modPort p f).watches = s.watches := rfl
@[simp] theorem modPort_channels (s : State) (p : PortId) (f : Port → Port) :
    (s.modPort p f).channels = s.channels := rfl
@[simp] theorem modPort_enginePointer (s : State) (p : PortId) (f : Port → Port) :
    (s.modPort p f).enginePointer = s.enginePointer := rfl
@[simp] theorem modPort_pending (s : State) (p : PortId) (f : Port → Port) :
    (s.modPort p f).pending = s.pending := rfl

@[simp] theorem mapPorts_supply (s : State) (f : PortId → Port → Port) :
    (s.mapPorts f).supply = s.supply := rfl
@[simp] theorem mapPorts_nReset (s : State) (f : PortId → Port → Port) :
    (s.mapPorts f).nReset = s.nReset := rfl
@[simp] theorem mapPorts_fill (s : State) (f : PortId → Port → Port) :
    (s.mapPorts f).fill = s.fill := rfl
@[simp] theorem mapPorts_filling (s : State) (f : PortId → Port → Port) :
    (s.mapPorts f).filling = s.filling := rfl
@[simp] theorem mapPorts_ticking (s : State) (f : PortId → Port → Port) :
    (s.mapPorts f).ticking = s.ticking := rfl
@[simp] theorem mapPorts_deferredOrder (s : State) (f : PortId → Port → Port) :
    (s.mapPorts f).deferredOrder = s.deferredOrder := rfl
@[simp] theorem mapPorts_lapsesDue (s : State) (f : PortId → Port → Port) :
    (s.mapPorts f).lapsesDue = s.lapsesDue := rfl
@[simp] theorem mapPorts_tickTriggered (s : State) (f : PortId → Port → Port) :
    (s.mapPorts f).tickTriggered = s.tickTriggered := rfl
@[simp] theorem mapPorts_array (s : State) (f : PortId → Port → Port) :
    (s.mapPorts f).array = s.array := rfl
@[simp] theorem mapPorts_pointer (s : State) (f : PortId → Port → Port) :
    (s.mapPorts f).pointer = s.pointer := rfl
@[simp] theorem mapPorts_grant (s : State) (f : PortId → Port → Port) :
    (s.mapPorts f).grant = s.grant := rfl
@[simp] theorem mapPorts_lateNotice (s : State) (f : PortId → Port → Port) :
    (s.mapPorts f).lateNotice = s.lateNotice := rfl
@[simp] theorem mapPorts_anchors (s : State) (f : PortId → Port → Port) :
    (s.mapPorts f).anchors = s.anchors := rfl
@[simp] theorem mapPorts_watches (s : State) (f : PortId → Port → Port) :
    (s.mapPorts f).watches = s.watches := rfl
@[simp] theorem mapPorts_channels (s : State) (f : PortId → Port → Port) :
    (s.mapPorts f).channels = s.channels := rfl
@[simp] theorem mapPorts_enginePointer (s : State) (f : PortId → Port → Port) :
    (s.mapPorts f).enginePointer = s.enginePointer := rfl
@[simp] theorem mapPorts_pending (s : State) (f : PortId → Port → Port) :
    (s.mapPorts f).pending = s.pending := rfl

@[simp] theorem setAnchor_supply (s : State) (a : AnchorId) (e : Anchor) :
    (s.setAnchor a e).supply = s.supply := rfl
@[simp] theorem setAnchor_nReset (s : State) (a : AnchorId) (e : Anchor) :
    (s.setAnchor a e).nReset = s.nReset := rfl
@[simp] theorem setAnchor_fill (s : State) (a : AnchorId) (e : Anchor) :
    (s.setAnchor a e).fill = s.fill := rfl
@[simp] theorem setAnchor_filling (s : State) (a : AnchorId) (e : Anchor) :
    (s.setAnchor a e).filling = s.filling := rfl
@[simp] theorem setAnchor_ticking (s : State) (a : AnchorId) (e : Anchor) :
    (s.setAnchor a e).ticking = s.ticking := rfl
@[simp] theorem setAnchor_deferredOrder (s : State) (a : AnchorId) (e : Anchor) :
    (s.setAnchor a e).deferredOrder = s.deferredOrder := rfl
@[simp] theorem setAnchor_lapsesDue (s : State) (a : AnchorId) (e : Anchor) :
    (s.setAnchor a e).lapsesDue = s.lapsesDue := rfl
@[simp] theorem setAnchor_tickTriggered (s : State) (a : AnchorId) (e : Anchor) :
    (s.setAnchor a e).tickTriggered = s.tickTriggered := rfl
@[simp] theorem setAnchor_array (s : State) (a : AnchorId) (e : Anchor) :
    (s.setAnchor a e).array = s.array := rfl
@[simp] theorem setAnchor_pointer (s : State) (a : AnchorId) (e : Anchor) :
    (s.setAnchor a e).pointer = s.pointer := rfl
@[simp] theorem setAnchor_grant (s : State) (a : AnchorId) (e : Anchor) :
    (s.setAnchor a e).grant = s.grant := rfl
@[simp] theorem setAnchor_lateNotice (s : State) (a : AnchorId) (e : Anchor) :
    (s.setAnchor a e).lateNotice = s.lateNotice := rfl
@[simp] theorem setAnchor_watches (s : State) (a : AnchorId) (e : Anchor) :
    (s.setAnchor a e).watches = s.watches := rfl
@[simp] theorem setAnchor_channels (s : State) (a : AnchorId) (e : Anchor) :
    (s.setAnchor a e).channels = s.channels := rfl
@[simp] theorem setAnchor_enginePointer (s : State) (a : AnchorId) (e : Anchor) :
    (s.setAnchor a e).enginePointer = s.enginePointer := rfl
@[simp] theorem setAnchor_ports (s : State) (a : AnchorId) (e : Anchor) :
    (s.setAnchor a e).ports = s.ports := rfl
@[simp] theorem setAnchor_pending (s : State) (a : AnchorId) (e : Anchor) :
    (s.setAnchor a e).pending = s.pending := rfl

@[simp] theorem setWatch_supply (s : State) (w : WatchId) (e : Watch) :
    (s.setWatch w e).supply = s.supply := rfl
@[simp] theorem setWatch_nReset (s : State) (w : WatchId) (e : Watch) :
    (s.setWatch w e).nReset = s.nReset := rfl
@[simp] theorem setWatch_fill (s : State) (w : WatchId) (e : Watch) :
    (s.setWatch w e).fill = s.fill := rfl
@[simp] theorem setWatch_filling (s : State) (w : WatchId) (e : Watch) :
    (s.setWatch w e).filling = s.filling := rfl
@[simp] theorem setWatch_ticking (s : State) (w : WatchId) (e : Watch) :
    (s.setWatch w e).ticking = s.ticking := rfl
@[simp] theorem setWatch_deferredOrder (s : State) (w : WatchId) (e : Watch) :
    (s.setWatch w e).deferredOrder = s.deferredOrder := rfl
@[simp] theorem setWatch_lapsesDue (s : State) (w : WatchId) (e : Watch) :
    (s.setWatch w e).lapsesDue = s.lapsesDue := rfl
@[simp] theorem setWatch_tickTriggered (s : State) (w : WatchId) (e : Watch) :
    (s.setWatch w e).tickTriggered = s.tickTriggered := rfl
@[simp] theorem setWatch_array (s : State) (w : WatchId) (e : Watch) :
    (s.setWatch w e).array = s.array := rfl
@[simp] theorem setWatch_pointer (s : State) (w : WatchId) (e : Watch) :
    (s.setWatch w e).pointer = s.pointer := rfl
@[simp] theorem setWatch_grant (s : State) (w : WatchId) (e : Watch) :
    (s.setWatch w e).grant = s.grant := rfl
@[simp] theorem setWatch_lateNotice (s : State) (w : WatchId) (e : Watch) :
    (s.setWatch w e).lateNotice = s.lateNotice := rfl
@[simp] theorem setWatch_anchors (s : State) (w : WatchId) (e : Watch) :
    (s.setWatch w e).anchors = s.anchors := rfl
@[simp] theorem setWatch_channels (s : State) (w : WatchId) (e : Watch) :
    (s.setWatch w e).channels = s.channels := rfl
@[simp] theorem setWatch_enginePointer (s : State) (w : WatchId) (e : Watch) :
    (s.setWatch w e).enginePointer = s.enginePointer := rfl
@[simp] theorem setWatch_ports (s : State) (w : WatchId) (e : Watch) :
    (s.setWatch w e).ports = s.ports := rfl
@[simp] theorem setWatch_pending (s : State) (w : WatchId) (e : Watch) :
    (s.setWatch w e).pending = s.pending := rfl

@[simp] theorem setChannel_supply (s : State) (k : ChannelId) (e : Channel) :
    (s.setChannel k e).supply = s.supply := rfl
@[simp] theorem setChannel_nReset (s : State) (k : ChannelId) (e : Channel) :
    (s.setChannel k e).nReset = s.nReset := rfl
@[simp] theorem setChannel_fill (s : State) (k : ChannelId) (e : Channel) :
    (s.setChannel k e).fill = s.fill := rfl
@[simp] theorem setChannel_filling (s : State) (k : ChannelId) (e : Channel) :
    (s.setChannel k e).filling = s.filling := rfl
@[simp] theorem setChannel_ticking (s : State) (k : ChannelId) (e : Channel) :
    (s.setChannel k e).ticking = s.ticking := rfl
@[simp] theorem setChannel_deferredOrder (s : State) (k : ChannelId) (e : Channel) :
    (s.setChannel k e).deferredOrder = s.deferredOrder := rfl
@[simp] theorem setChannel_lapsesDue (s : State) (k : ChannelId) (e : Channel) :
    (s.setChannel k e).lapsesDue = s.lapsesDue := rfl
@[simp] theorem setChannel_tickTriggered (s : State) (k : ChannelId) (e : Channel) :
    (s.setChannel k e).tickTriggered = s.tickTriggered := rfl
@[simp] theorem setChannel_array (s : State) (k : ChannelId) (e : Channel) :
    (s.setChannel k e).array = s.array := rfl
@[simp] theorem setChannel_pointer (s : State) (k : ChannelId) (e : Channel) :
    (s.setChannel k e).pointer = s.pointer := rfl
@[simp] theorem setChannel_grant (s : State) (k : ChannelId) (e : Channel) :
    (s.setChannel k e).grant = s.grant := rfl
@[simp] theorem setChannel_lateNotice (s : State) (k : ChannelId) (e : Channel) :
    (s.setChannel k e).lateNotice = s.lateNotice := rfl
@[simp] theorem setChannel_anchors (s : State) (k : ChannelId) (e : Channel) :
    (s.setChannel k e).anchors = s.anchors := rfl
@[simp] theorem setChannel_watches (s : State) (k : ChannelId) (e : Channel) :
    (s.setChannel k e).watches = s.watches := rfl
@[simp] theorem setChannel_enginePointer (s : State) (k : ChannelId) (e : Channel) :
    (s.setChannel k e).enginePointer = s.enginePointer := rfl
@[simp] theorem setChannel_ports (s : State) (k : ChannelId) (e : Channel) :
    (s.setChannel k e).ports = s.ports := rfl
@[simp] theorem setChannel_pending (s : State) (k : ChannelId) (e : Channel) :
    (s.setChannel k e).pending = s.pending := rfl

@[simp] theorem mapCursors_supply (s : State) (f : Option Binding → Option Binding) :
    (s.mapCursors f).supply = s.supply := rfl
@[simp] theorem mapCursors_nReset (s : State) (f : Option Binding → Option Binding) :
    (s.mapCursors f).nReset = s.nReset := rfl
@[simp] theorem mapCursors_fill (s : State) (f : Option Binding → Option Binding) :
    (s.mapCursors f).fill = s.fill := rfl
@[simp] theorem mapCursors_filling (s : State) (f : Option Binding → Option Binding) :
    (s.mapCursors f).filling = s.filling := rfl
@[simp] theorem mapCursors_ticking (s : State) (f : Option Binding → Option Binding) :
    (s.mapCursors f).ticking = s.ticking := rfl
@[simp] theorem mapCursors_deferredOrder (s : State) (f : Option Binding → Option Binding) :
    (s.mapCursors f).deferredOrder = s.deferredOrder := rfl
@[simp] theorem mapCursors_lapsesDue (s : State) (f : Option Binding → Option Binding) :
    (s.mapCursors f).lapsesDue = s.lapsesDue := rfl
@[simp] theorem mapCursors_tickTriggered (s : State) (f : Option Binding → Option Binding) :
    (s.mapCursors f).tickTriggered = s.tickTriggered := rfl
@[simp] theorem mapCursors_array (s : State) (f : Option Binding → Option Binding) :
    (s.mapCursors f).array = s.array := rfl
@[simp] theorem mapCursors_pointer (s : State) (f : Option Binding → Option Binding) :
    (s.mapCursors f).pointer = s.pointer := rfl
@[simp] theorem mapCursors_grant (s : State) (f : Option Binding → Option Binding) :
    (s.mapCursors f).grant = s.grant := rfl
@[simp] theorem mapCursors_lateNotice (s : State) (f : Option Binding → Option Binding) :
    (s.mapCursors f).lateNotice = s.lateNotice := rfl
@[simp] theorem mapCursors_anchors (s : State) (f : Option Binding → Option Binding) :
    (s.mapCursors f).anchors = s.anchors := rfl
@[simp] theorem mapCursors_watches (s : State) (f : Option Binding → Option Binding) :
    (s.mapCursors f).watches = s.watches := rfl
@[simp] theorem mapCursors_channels (s : State) (f : Option Binding → Option Binding) :
    (s.mapCursors f).channels = s.channels := rfl
@[simp] theorem mapCursors_enginePointer (s : State) (f : Option Binding → Option Binding) :
    (s.mapCursors f).enginePointer = s.enginePointer := rfl
@[simp] theorem mapCursors_pending (s : State) (f : Option Binding → Option Binding) :
    (s.mapCursors f).pending = s.pending := rfl

@[simp] theorem showPending_supply (s : State) (p : PortId) (t : Byte) :
    (s.showPending p t).supply = s.supply := rfl
@[simp] theorem showPending_nReset (s : State) (p : PortId) (t : Byte) :
    (s.showPending p t).nReset = s.nReset := rfl
@[simp] theorem showPending_fill (s : State) (p : PortId) (t : Byte) :
    (s.showPending p t).fill = s.fill := rfl
@[simp] theorem showPending_filling (s : State) (p : PortId) (t : Byte) :
    (s.showPending p t).filling = s.filling := rfl
@[simp] theorem showPending_ticking (s : State) (p : PortId) (t : Byte) :
    (s.showPending p t).ticking = s.ticking := rfl
@[simp] theorem showPending_deferredOrder (s : State) (p : PortId) (t : Byte) :
    (s.showPending p t).deferredOrder = s.deferredOrder := rfl
@[simp] theorem showPending_lapsesDue (s : State) (p : PortId) (t : Byte) :
    (s.showPending p t).lapsesDue = s.lapsesDue := rfl
@[simp] theorem showPending_tickTriggered (s : State) (p : PortId) (t : Byte) :
    (s.showPending p t).tickTriggered = s.tickTriggered := rfl
@[simp] theorem showPending_array (s : State) (p : PortId) (t : Byte) :
    (s.showPending p t).array = s.array := rfl
@[simp] theorem showPending_pointer (s : State) (p : PortId) (t : Byte) :
    (s.showPending p t).pointer = s.pointer := rfl
@[simp] theorem showPending_grant (s : State) (p : PortId) (t : Byte) :
    (s.showPending p t).grant = s.grant := rfl
@[simp] theorem showPending_lateNotice (s : State) (p : PortId) (t : Byte) :
    (s.showPending p t).lateNotice = s.lateNotice := rfl
@[simp] theorem showPending_anchors (s : State) (p : PortId) (t : Byte) :
    (s.showPending p t).anchors = s.anchors := rfl
@[simp] theorem showPending_watches (s : State) (p : PortId) (t : Byte) :
    (s.showPending p t).watches = s.watches := rfl
@[simp] theorem showPending_channels (s : State) (p : PortId) (t : Byte) :
    (s.showPending p t).channels = s.channels := rfl
@[simp] theorem showPending_enginePointer (s : State) (p : PortId) (t : Byte) :
    (s.showPending p t).enginePointer = s.enginePointer := rfl
@[simp] theorem showPending_pending (s : State) (p : PortId) (t : Byte) :
    (s.showPending p t).pending = s.pending := rfl

@[simp] theorem complete_supply (s : State) (p : PortId) (c : ResultCode) (d : List Byte) :
    (s.complete p c d).supply = s.supply := rfl
@[simp] theorem complete_nReset (s : State) (p : PortId) (c : ResultCode) (d : List Byte) :
    (s.complete p c d).nReset = s.nReset := rfl
@[simp] theorem complete_fill (s : State) (p : PortId) (c : ResultCode) (d : List Byte) :
    (s.complete p c d).fill = s.fill := rfl
@[simp] theorem complete_filling (s : State) (p : PortId) (c : ResultCode) (d : List Byte) :
    (s.complete p c d).filling = s.filling := rfl
@[simp] theorem complete_ticking (s : State) (p : PortId) (c : ResultCode) (d : List Byte) :
    (s.complete p c d).ticking = s.ticking := rfl
@[simp] theorem complete_deferredOrder (s : State) (p : PortId) (c : ResultCode) (d : List Byte) :
    (s.complete p c d).deferredOrder = s.deferredOrder := rfl
@[simp] theorem complete_lapsesDue (s : State) (p : PortId) (c : ResultCode) (d : List Byte) :
    (s.complete p c d).lapsesDue = s.lapsesDue := rfl
@[simp] theorem complete_tickTriggered (s : State) (p : PortId) (c : ResultCode) (d : List Byte) :
    (s.complete p c d).tickTriggered = s.tickTriggered := rfl
@[simp] theorem complete_array (s : State) (p : PortId) (c : ResultCode) (d : List Byte) :
    (s.complete p c d).array = s.array := rfl
@[simp] theorem complete_pointer (s : State) (p : PortId) (c : ResultCode) (d : List Byte) :
    (s.complete p c d).pointer = s.pointer := rfl
@[simp] theorem complete_grant (s : State) (p : PortId) (c : ResultCode) (d : List Byte) :
    (s.complete p c d).grant = s.grant := rfl
@[simp] theorem complete_lateNotice (s : State) (p : PortId) (c : ResultCode) (d : List Byte) :
    (s.complete p c d).lateNotice = s.lateNotice := rfl
@[simp] theorem complete_anchors (s : State) (p : PortId) (c : ResultCode) (d : List Byte) :
    (s.complete p c d).anchors = s.anchors := rfl
@[simp] theorem complete_watches (s : State) (p : PortId) (c : ResultCode) (d : List Byte) :
    (s.complete p c d).watches = s.watches := rfl
@[simp] theorem complete_channels (s : State) (p : PortId) (c : ResultCode) (d : List Byte) :
    (s.complete p c d).channels = s.channels := rfl
@[simp] theorem complete_enginePointer (s : State) (p : PortId) (c : ResultCode) (d : List Byte) :
    (s.complete p c d).enginePointer = s.enginePointer := rfl
@[simp] theorem complete_pending (s : State) (p : PortId) (c : ResultCode) (d : List Byte) :
    (s.complete p c d).pending = s.pending := rfl

@[simp] theorem setInFlight_supply (s : State) (p : PortId) (r : InFlight) :
    (s.setInFlight p r).supply = s.supply := rfl
@[simp] theorem setInFlight_nReset (s : State) (p : PortId) (r : InFlight) :
    (s.setInFlight p r).nReset = s.nReset := rfl
@[simp] theorem setInFlight_fill (s : State) (p : PortId) (r : InFlight) :
    (s.setInFlight p r).fill = s.fill := rfl
@[simp] theorem setInFlight_filling (s : State) (p : PortId) (r : InFlight) :
    (s.setInFlight p r).filling = s.filling := rfl
@[simp] theorem setInFlight_ticking (s : State) (p : PortId) (r : InFlight) :
    (s.setInFlight p r).ticking = s.ticking := rfl
@[simp] theorem setInFlight_deferredOrder (s : State) (p : PortId) (r : InFlight) :
    (s.setInFlight p r).deferredOrder = s.deferredOrder := rfl
@[simp] theorem setInFlight_lapsesDue (s : State) (p : PortId) (r : InFlight) :
    (s.setInFlight p r).lapsesDue = s.lapsesDue := rfl
@[simp] theorem setInFlight_tickTriggered (s : State) (p : PortId) (r : InFlight) :
    (s.setInFlight p r).tickTriggered = s.tickTriggered := rfl
@[simp] theorem setInFlight_array (s : State) (p : PortId) (r : InFlight) :
    (s.setInFlight p r).array = s.array := rfl
@[simp] theorem setInFlight_pointer (s : State) (p : PortId) (r : InFlight) :
    (s.setInFlight p r).pointer = s.pointer := rfl
@[simp] theorem setInFlight_grant (s : State) (p : PortId) (r : InFlight) :
    (s.setInFlight p r).grant = s.grant := rfl
@[simp] theorem setInFlight_lateNotice (s : State) (p : PortId) (r : InFlight) :
    (s.setInFlight p r).lateNotice = s.lateNotice := rfl
@[simp] theorem setInFlight_anchors (s : State) (p : PortId) (r : InFlight) :
    (s.setInFlight p r).anchors = s.anchors := rfl
@[simp] theorem setInFlight_watches (s : State) (p : PortId) (r : InFlight) :
    (s.setInFlight p r).watches = s.watches := rfl
@[simp] theorem setInFlight_channels (s : State) (p : PortId) (r : InFlight) :
    (s.setInFlight p r).channels = s.channels := rfl
@[simp] theorem setInFlight_enginePointer (s : State) (p : PortId) (r : InFlight) :
    (s.setInFlight p r).enginePointer = s.enginePointer := rfl
@[simp] theorem setInFlight_pending (s : State) (p : PortId) (r : InFlight) :
    (s.setInFlight p r).pending = s.pending := rfl

@[simp] theorem postTo_supply (s : State) (b : BitVec 4) (n : Notice) :
    (s.postTo b n).supply = s.supply := rfl
@[simp] theorem postTo_nReset (s : State) (b : BitVec 4) (n : Notice) :
    (s.postTo b n).nReset = s.nReset := rfl
@[simp] theorem postTo_fill (s : State) (b : BitVec 4) (n : Notice) :
    (s.postTo b n).fill = s.fill := rfl
@[simp] theorem postTo_filling (s : State) (b : BitVec 4) (n : Notice) :
    (s.postTo b n).filling = s.filling := rfl
@[simp] theorem postTo_ticking (s : State) (b : BitVec 4) (n : Notice) :
    (s.postTo b n).ticking = s.ticking := rfl
@[simp] theorem postTo_deferredOrder (s : State) (b : BitVec 4) (n : Notice) :
    (s.postTo b n).deferredOrder = s.deferredOrder := rfl
@[simp] theorem postTo_lapsesDue (s : State) (b : BitVec 4) (n : Notice) :
    (s.postTo b n).lapsesDue = s.lapsesDue := rfl
@[simp] theorem postTo_tickTriggered (s : State) (b : BitVec 4) (n : Notice) :
    (s.postTo b n).tickTriggered = s.tickTriggered := rfl
@[simp] theorem postTo_array (s : State) (b : BitVec 4) (n : Notice) :
    (s.postTo b n).array = s.array := rfl
@[simp] theorem postTo_pointer (s : State) (b : BitVec 4) (n : Notice) :
    (s.postTo b n).pointer = s.pointer := rfl
@[simp] theorem postTo_grant (s : State) (b : BitVec 4) (n : Notice) :
    (s.postTo b n).grant = s.grant := rfl
@[simp] theorem postTo_lateNotice (s : State) (b : BitVec 4) (n : Notice) :
    (s.postTo b n).lateNotice = s.lateNotice := rfl
@[simp] theorem postTo_anchors (s : State) (b : BitVec 4) (n : Notice) :
    (s.postTo b n).anchors = s.anchors := rfl
@[simp] theorem postTo_watches (s : State) (b : BitVec 4) (n : Notice) :
    (s.postTo b n).watches = s.watches := rfl
@[simp] theorem postTo_channels (s : State) (b : BitVec 4) (n : Notice) :
    (s.postTo b n).channels = s.channels := rfl
@[simp] theorem postTo_enginePointer (s : State) (b : BitVec 4) (n : Notice) :
    (s.postTo b n).enginePointer = s.enginePointer := rfl
@[simp] theorem postTo_pending (s : State) (b : BitVec 4) (n : Notice) :
    (s.postTo b n).pending = s.pending := rfl

@[simp] theorem setMode_supply (s : State) (p : PortId) (m : PortMode) :
    (s.setMode p m).supply = s.supply := rfl
@[simp] theorem setMode_nReset (s : State) (p : PortId) (m : PortMode) :
    (s.setMode p m).nReset = s.nReset := rfl
@[simp] theorem setMode_fill (s : State) (p : PortId) (m : PortMode) :
    (s.setMode p m).fill = s.fill := rfl
@[simp] theorem setMode_filling (s : State) (p : PortId) (m : PortMode) :
    (s.setMode p m).filling = s.filling := rfl
@[simp] theorem setMode_ticking (s : State) (p : PortId) (m : PortMode) :
    (s.setMode p m).ticking = s.ticking := rfl
@[simp] theorem setMode_deferredOrder (s : State) (p : PortId) (m : PortMode) :
    (s.setMode p m).deferredOrder = s.deferredOrder := rfl
@[simp] theorem setMode_lapsesDue (s : State) (p : PortId) (m : PortMode) :
    (s.setMode p m).lapsesDue = s.lapsesDue := rfl
@[simp] theorem setMode_tickTriggered (s : State) (p : PortId) (m : PortMode) :
    (s.setMode p m).tickTriggered = s.tickTriggered := rfl
@[simp] theorem setMode_array (s : State) (p : PortId) (m : PortMode) :
    (s.setMode p m).array = s.array := rfl
@[simp] theorem setMode_pointer (s : State) (p : PortId) (m : PortMode) :
    (s.setMode p m).pointer = s.pointer := rfl
@[simp] theorem setMode_grant (s : State) (p : PortId) (m : PortMode) :
    (s.setMode p m).grant = s.grant := rfl
@[simp] theorem setMode_lateNotice (s : State) (p : PortId) (m : PortMode) :
    (s.setMode p m).lateNotice = s.lateNotice := rfl
@[simp] theorem setMode_anchors (s : State) (p : PortId) (m : PortMode) :
    (s.setMode p m).anchors = s.anchors := rfl
@[simp] theorem setMode_watches (s : State) (p : PortId) (m : PortMode) :
    (s.setMode p m).watches = s.watches := rfl
@[simp] theorem setMode_channels (s : State) (p : PortId) (m : PortMode) :
    (s.setMode p m).channels = s.channels := rfl
@[simp] theorem setMode_enginePointer (s : State) (p : PortId) (m : PortMode) :
    (s.setMode p m).enginePointer = s.enginePointer := rfl
@[simp] theorem setMode_pending (s : State) (p : PortId) (m : PortMode) :
    (s.setMode p m).pending = s.pending := rfl

@[simp] theorem closeFrame_supply (s : State) (p : PortId) (n : Nat) :
    (s.closeFrame p n).supply = s.supply := rfl
@[simp] theorem closeFrame_nReset (s : State) (p : PortId) (n : Nat) :
    (s.closeFrame p n).nReset = s.nReset := rfl
@[simp] theorem closeFrame_fill (s : State) (p : PortId) (n : Nat) :
    (s.closeFrame p n).fill = s.fill := rfl
@[simp] theorem closeFrame_filling (s : State) (p : PortId) (n : Nat) :
    (s.closeFrame p n).filling = s.filling := rfl
@[simp] theorem closeFrame_ticking (s : State) (p : PortId) (n : Nat) :
    (s.closeFrame p n).ticking = s.ticking := rfl
@[simp] theorem closeFrame_deferredOrder (s : State) (p : PortId) (n : Nat) :
    (s.closeFrame p n).deferredOrder = s.deferredOrder := rfl
@[simp] theorem closeFrame_lapsesDue (s : State) (p : PortId) (n : Nat) :
    (s.closeFrame p n).lapsesDue = s.lapsesDue := rfl
@[simp] theorem closeFrame_tickTriggered (s : State) (p : PortId) (n : Nat) :
    (s.closeFrame p n).tickTriggered = s.tickTriggered := rfl
@[simp] theorem closeFrame_array (s : State) (p : PortId) (n : Nat) :
    (s.closeFrame p n).array = s.array := rfl
@[simp] theorem closeFrame_pointer (s : State) (p : PortId) (n : Nat) :
    (s.closeFrame p n).pointer = s.pointer := rfl
@[simp] theorem closeFrame_grant (s : State) (p : PortId) (n : Nat) :
    (s.closeFrame p n).grant = s.grant := rfl
@[simp] theorem closeFrame_lateNotice (s : State) (p : PortId) (n : Nat) :
    (s.closeFrame p n).lateNotice = s.lateNotice := rfl
@[simp] theorem closeFrame_anchors (s : State) (p : PortId) (n : Nat) :
    (s.closeFrame p n).anchors = s.anchors := rfl
@[simp] theorem closeFrame_watches (s : State) (p : PortId) (n : Nat) :
    (s.closeFrame p n).watches = s.watches := rfl
@[simp] theorem closeFrame_channels (s : State) (p : PortId) (n : Nat) :
    (s.closeFrame p n).channels = s.channels := rfl
@[simp] theorem closeFrame_enginePointer (s : State) (p : PortId) (n : Nat) :
    (s.closeFrame p n).enginePointer = s.enginePointer := rfl
@[simp] theorem closeFrame_pending (s : State) (p : PortId) (n : Nat) :
    (s.closeFrame p n).pending = s.pending := rfl

/-! ### Lookups -/

/-- The entry a table holds after one of its entries was changed. -/
theorem getElem_set_cases {α : Type} {n : Nat} (v : Vector α n) (i j : Fin n) (x : α) :
    (v.set i x)[j] = if i = j then x else v[j] := by
  by_cases h : i = j
  · subst h
    simp
  · have h' : i.val ≠ j.val := fun e => h (Fin.ext e)
    simp [h, Vector.getElem_set_ne _ _ h']

@[simp] theorem tableMap_getElem {α : Type} {n : Nat} (f : α → α) (v : Vector α n) (i : Nat) (h : i < n) :
    (tableMap f v)[i] = f v[i] := by
  obtain ⟨⟨l⟩, hl⟩ := v
  simp [tableMap]

theorem port_setPort (s : State) (i j : PortId) (e : Port) :
    (s.setPort i e).port j = if i = j then e else s.port j := getElem_set_cases s.ports i j e

@[simp] theorem port_setPort_same (s : State) (i : PortId) (e : Port) : (s.setPort i e).port i = e := by
  simp [port_setPort]

theorem port_setPort_other (s : State) {i j : PortId} (e : Port) (h : i ≠ j) : (s.setPort i e).port j = s.port j := by
  simp [port_setPort, h]

theorem anchor_setAnchor (s : State) (i j : AnchorId) (e : Anchor) :
    (s.setAnchor i e).anchor j = if i = j then e else s.anchor j := getElem_set_cases s.anchors i j e

@[simp] theorem anchor_setAnchor_same (s : State) (i : AnchorId) (e : Anchor) : (s.setAnchor i e).anchor i = e := by
  simp [anchor_setAnchor]

theorem anchor_setAnchor_other (s : State) {i j : AnchorId} (e : Anchor) (h : i ≠ j) : (s.setAnchor i e).anchor j = s.anchor j := by
  simp [anchor_setAnchor, h]

theorem watch_setWatch (s : State) (i j : WatchId) (e : Watch) :
    (s.setWatch i e).watch j = if i = j then e else s.watch j := getElem_set_cases s.watches i j e

@[simp] theorem watch_setWatch_same (s : State) (i : WatchId) (e : Watch) : (s.setWatch i e).watch i = e := by
  simp [watch_setWatch]

theorem watch_setWatch_other (s : State) {i j : WatchId} (e : Watch) (h : i ≠ j) : (s.setWatch i e).watch j = s.watch j := by
  simp [watch_setWatch, h]

theorem channel_setChannel (s : State) (i j : ChannelId) (e : Channel) :
    (s.setChannel i e).channel j = if i = j then e else s.channel j := getElem_set_cases s.channels i j e

@[simp] theorem channel_setChannel_same (s : State) (i : ChannelId) (e : Channel) : (s.setChannel i e).channel i = e := by
  simp [channel_setChannel]

theorem channel_setChannel_other (s : State) {i j : ChannelId} (e : Channel) (h : i ≠ j) : (s.setChannel i e).channel j = s.channel j := by
  simp [channel_setChannel, h]

@[simp] theorem anchor_setPort_frame (s : State) (p : PortId) (q : Port) (i : AnchorId) :
    (s.setPort p q).anchor i = s.anchor i := rfl
@[simp] theorem watch_setPort_frame (s : State) (p : PortId) (q : Port) (i : WatchId) :
    (s.setPort p q).watch i = s.watch i := rfl
@[simp] theorem channel_setPort_frame (s : State) (p : PortId) (q : Port) (i : ChannelId) :
    (s.setPort p q).channel i = s.channel i := rfl

@[simp] theorem anchor_modPort_frame (s : State) (p : PortId) (f : Port → Port) (i : AnchorId) :
    (s.modPort p f).anchor i = s.anchor i := rfl
@[simp] theorem watch_modPort_frame (s : State) (p : PortId) (f : Port → Port) (i : WatchId) :
    (s.modPort p f).watch i = s.watch i := rfl
@[simp] theorem channel_modPort_frame (s : State) (p : PortId) (f : Port → Port) (i : ChannelId) :
    (s.modPort p f).channel i = s.channel i := rfl

@[simp] theorem anchor_mapPorts_frame (s : State) (f : PortId → Port → Port) (i : AnchorId) :
    (s.mapPorts f).anchor i = s.anchor i := rfl
@[simp] theorem watch_mapPorts_frame (s : State) (f : PortId → Port → Port) (i : WatchId) :
    (s.mapPorts f).watch i = s.watch i := rfl
@[simp] theorem channel_mapPorts_frame (s : State) (f : PortId → Port → Port) (i : ChannelId) :
    (s.mapPorts f).channel i = s.channel i := rfl

@[simp] theorem port_setAnchor_frame (s : State) (a : AnchorId) (e : Anchor) (i : PortId) :
    (s.setAnchor a e).port i = s.port i := rfl
@[simp] theorem watch_setAnchor_frame (s : State) (a : AnchorId) (e : Anchor) (i : WatchId) :
    (s.setAnchor a e).watch i = s.watch i := rfl
@[simp] theorem channel_setAnchor_frame (s : State) (a : AnchorId) (e : Anchor) (i : ChannelId) :
    (s.setAnchor a e).channel i = s.channel i := rfl

@[simp] theorem port_setWatch_frame (s : State) (w : WatchId) (e : Watch) (i : PortId) :
    (s.setWatch w e).port i = s.port i := rfl
@[simp] theorem anchor_setWatch_frame (s : State) (w : WatchId) (e : Watch) (i : AnchorId) :
    (s.setWatch w e).anchor i = s.anchor i := rfl
@[simp] theorem channel_setWatch_frame (s : State) (w : WatchId) (e : Watch) (i : ChannelId) :
    (s.setWatch w e).channel i = s.channel i := rfl

@[simp] theorem port_setChannel_frame (s : State) (k : ChannelId) (e : Channel) (i : PortId) :
    (s.setChannel k e).port i = s.port i := rfl
@[simp] theorem anchor_setChannel_frame (s : State) (k : ChannelId) (e : Channel) (i : AnchorId) :
    (s.setChannel k e).anchor i = s.anchor i := rfl
@[simp] theorem watch_setChannel_frame (s : State) (k : ChannelId) (e : Channel) (i : WatchId) :
    (s.setChannel k e).watch i = s.watch i := rfl

@[simp] theorem anchor_mapCursors_frame (s : State) (f : Option Binding → Option Binding) (i : AnchorId) :
    (s.mapCursors f).anchor i = s.anchor i := rfl
@[simp] theorem watch_mapCursors_frame (s : State) (f : Option Binding → Option Binding) (i : WatchId) :
    (s.mapCursors f).watch i = s.watch i := rfl
@[simp] theorem channel_mapCursors_frame (s : State) (f : Option Binding → Option Binding) (i : ChannelId) :
    (s.mapCursors f).channel i = s.channel i := rfl

@[simp] theorem anchor_showPending_frame (s : State) (p : PortId) (t : Byte) (i : AnchorId) :
    (s.showPending p t).anchor i = s.anchor i := rfl
@[simp] theorem watch_showPending_frame (s : State) (p : PortId) (t : Byte) (i : WatchId) :
    (s.showPending p t).watch i = s.watch i := rfl
@[simp] theorem channel_showPending_frame (s : State) (p : PortId) (t : Byte) (i : ChannelId) :
    (s.showPending p t).channel i = s.channel i := rfl

@[simp] theorem anchor_complete_frame (s : State) (p : PortId) (c : ResultCode) (d : List Byte) (i : AnchorId) :
    (s.complete p c d).anchor i = s.anchor i := rfl
@[simp] theorem watch_complete_frame (s : State) (p : PortId) (c : ResultCode) (d : List Byte) (i : WatchId) :
    (s.complete p c d).watch i = s.watch i := rfl
@[simp] theorem channel_complete_frame (s : State) (p : PortId) (c : ResultCode) (d : List Byte) (i : ChannelId) :
    (s.complete p c d).channel i = s.channel i := rfl

@[simp] theorem anchor_setInFlight_frame (s : State) (p : PortId) (r : InFlight) (i : AnchorId) :
    (s.setInFlight p r).anchor i = s.anchor i := rfl
@[simp] theorem watch_setInFlight_frame (s : State) (p : PortId) (r : InFlight) (i : WatchId) :
    (s.setInFlight p r).watch i = s.watch i := rfl
@[simp] theorem channel_setInFlight_frame (s : State) (p : PortId) (r : InFlight) (i : ChannelId) :
    (s.setInFlight p r).channel i = s.channel i := rfl

@[simp] theorem anchor_postTo_frame (s : State) (b : BitVec 4) (n : Notice) (i : AnchorId) :
    (s.postTo b n).anchor i = s.anchor i := rfl
@[simp] theorem watch_postTo_frame (s : State) (b : BitVec 4) (n : Notice) (i : WatchId) :
    (s.postTo b n).watch i = s.watch i := rfl
@[simp] theorem channel_postTo_frame (s : State) (b : BitVec 4) (n : Notice) (i : ChannelId) :
    (s.postTo b n).channel i = s.channel i := rfl

@[simp] theorem anchor_setMode_frame (s : State) (p : PortId) (m : PortMode) (i : AnchorId) :
    (s.setMode p m).anchor i = s.anchor i := rfl
@[simp] theorem watch_setMode_frame (s : State) (p : PortId) (m : PortMode) (i : WatchId) :
    (s.setMode p m).watch i = s.watch i := rfl
@[simp] theorem channel_setMode_frame (s : State) (p : PortId) (m : PortMode) (i : ChannelId) :
    (s.setMode p m).channel i = s.channel i := rfl

@[simp] theorem anchor_closeFrame_frame (s : State) (p : PortId) (n : Nat) (i : AnchorId) :
    (s.closeFrame p n).anchor i = s.anchor i := rfl
@[simp] theorem watch_closeFrame_frame (s : State) (p : PortId) (n : Nat) (i : WatchId) :
    (s.closeFrame p n).watch i = s.watch i := rfl
@[simp] theorem channel_closeFrame_frame (s : State) (p : PortId) (n : Nat) (i : ChannelId) :
    (s.closeFrame p n).channel i = s.channel i := rfl

@[simp] theorem port_mapPorts (s : State) (f : PortId → Port → Port) (p : PortId) :
    (s.mapPorts f).port p = f p (s.port p) := by
  fin_cases p <;> rfl

theorem port_modPort (s : State) (i j : PortId) (f : Port → Port) :
    (s.modPort i f).port j = if i = j then f (s.port i) else s.port j := port_setPort s i j _

@[simp] theorem port_modPort_same (s : State) (p : PortId) (f : Port → Port) :
    (s.modPort p f).port p = f (s.port p) := by
  simp [port_modPort]

theorem port_modPort_other (s : State) {i j : PortId} (f : Port → Port) (h : i ≠ j) :
    (s.modPort i f).port j = s.port j := by
  simp [port_modPort, h]

/-- Two changes of one port are one change. -/
@[simp] theorem modPort_modPort (s : State) (p : PortId) (f g : Port → Port) :
    (s.modPort p f).modPort p g = s.modPort p (fun q => g (f q)) := by
  have h := port_modPort_same s p f
  unfold State.modPort State.setPort at *
  simp only [State.mk.injEq, true_and, and_true]
  rw [h]
  simp [Vector.set_set]

/-- A change of a port sees the port alone. -/
theorem modPort_congr (s : State) (p : PortId) (f g : Port → Port) (h : f (s.port p) = g (s.port p)) :
    s.modPort p f = s.modPort p g := by
  unfold State.modPort
  rw [h]

/-- A change of a table entry and a change of a port touch different fields. -/
theorem modPort_setAnchor (s : State) (p : PortId) (f : Port → Port) (a : AnchorId) (e : Anchor) :
    (s.modPort p f).setAnchor a e = (s.setAnchor a e).modPort p f := rfl

theorem modPort_setWatch (s : State) (p : PortId) (f : Port → Port) (w : WatchId) (e : Watch) :
    (s.modPort p f).setWatch w e = (s.setWatch w e).modPort p f := rfl

theorem modPort_setChannel (s : State) (p : PortId) (f : Port → Port) (k : ChannelId) (e : Channel) :
    (s.modPort p f).setChannel k e = (s.setChannel k e).modPort p f := rfl

theorem postTo_setChannel (s : State) (b : BitVec 4) (n : Notice) (k : ChannelId) (e : Channel) :
    (s.postTo b n).setChannel k e = (s.setChannel k e).postTo b n := rfl

/-- Of two changes of one channel the later stands. -/
@[simp] theorem setChannel_setChannel (s : State) (k : ChannelId) (e e' : Channel) :
    (s.setChannel k e).setChannel k e' = s.setChannel k e' := by
  simp [State.setChannel, Vector.set_set]

/-- A notice posted to a set of ports is decided on the queue of each of them alone. -/
@[simp] theorem port_postTo (s : State) (set : BitVec 4) (n : Notice) (p : PortId) :
    (s.postTo set n).port p = if set.getLsbD p.val then (s.port p).post n else s.port p :=
  port_mapPorts s _ p

/-- Two states with the same entries and the same other fields are the same state. -/
theorem ports_ext {s t : State} (h : ∀ p, s.port p = t.port p) : s.ports = t.ports := by
  apply Vector.ext
  intro i hi
  exact h ⟨i, hi⟩

@[simp] theorem cursor_setCursor (q : Port) (c d : CursorId) (b : Option Binding) :
    (q.setCursor c b).cursor d = if c = d then b else q.cursor d := getElem_set_cases q.cursors c d b

/-! ### A port's departure from the sets, and the run-end notice still to be posted -/

@[simp] theorem leaveSets_supply (s : State) (p : PortId) : (s.leaveSets p).supply = s.supply := rfl
@[simp] theorem leaveSets_nReset (s : State) (p : PortId) : (s.leaveSets p).nReset = s.nReset := rfl
@[simp] theorem leaveSets_fill (s : State) (p : PortId) : (s.leaveSets p).fill = s.fill := rfl
@[simp] theorem leaveSets_filling (s : State) (p : PortId) : (s.leaveSets p).filling = s.filling := rfl
@[simp] theorem leaveSets_ticking (s : State) (p : PortId) : (s.leaveSets p).ticking = s.ticking := rfl
@[simp] theorem leaveSets_deferredOrder (s : State) (p : PortId) : (s.leaveSets p).deferredOrder = s.deferredOrder := rfl
@[simp] theorem leaveSets_lapsesDue (s : State) (p : PortId) : (s.leaveSets p).lapsesDue = s.lapsesDue := rfl
@[simp] theorem leaveSets_tickTriggered (s : State) (p : PortId) : (s.leaveSets p).tickTriggered = s.tickTriggered := rfl
@[simp] theorem leaveSets_array (s : State) (p : PortId) : (s.leaveSets p).array = s.array := rfl
@[simp] theorem leaveSets_pointer (s : State) (p : PortId) : (s.leaveSets p).pointer = s.pointer := rfl
@[simp] theorem leaveSets_grant (s : State) (p : PortId) : (s.leaveSets p).grant = s.grant := rfl
@[simp] theorem leaveSets_anchors (s : State) (p : PortId) : (s.leaveSets p).anchors = s.anchors := rfl
@[simp] theorem leaveSets_enginePointer (s : State) (p : PortId) : (s.leaveSets p).enginePointer = s.enginePointer := rfl
@[simp] theorem leaveSets_ports (s : State) (p : PortId) : (s.leaveSets p).ports = s.ports := rfl
@[simp] theorem leaveSets_pending (s : State) (p : PortId) : (s.leaveSets p).pending = s.pending := rfl

@[simp] theorem port_leaveSets_frame (s : State) (p q : PortId) : (s.leaveSets p).port q = s.port q := rfl

@[simp] theorem anchor_leaveSets_frame (s : State) (p : PortId) (a : AnchorId) :
    (s.leaveSets p).anchor a = s.anchor a := rfl

@[simp] theorem watch_leaveSets (s : State) (p : PortId) (w : WatchId) :
    (s.leaveSets p).watch w = (s.watch w).leave p := tableMap_getElem _ s.watches w.val w.isLt

@[simp] theorem channel_leaveSets (s : State) (p : PortId) (k : ChannelId) :
    (s.leaveSets p).channel k = (s.channel k).leave p := tableMap_getElem _ s.channels k.val k.isLt

@[simp] theorem postLate_supply (s : State) : s.postLate.supply = s.supply := by
  unfold State.postLate
  split <;> rfl

@[simp] theorem postLate_nReset (s : State) : s.postLate.nReset = s.nReset := by
  unfold State.postLate
  split <;> rfl

@[simp] theorem postLate_fill (s : State) : s.postLate.fill = s.fill := by
  unfold State.postLate
  split <;> rfl

@[simp] theorem postLate_filling (s : State) : s.postLate.filling = s.filling := by
  unfold State.postLate
  split <;> rfl

@[simp] theorem postLate_ticking (s : State) : s.postLate.ticking = s.ticking := by
  unfold State.postLate
  split <;> rfl

@[simp] theorem postLate_deferredOrder (s : State) : s.postLate.deferredOrder = s.deferredOrder := by
  unfold State.postLate
  split <;> rfl

@[simp] theorem postLate_lapsesDue (s : State) : s.postLate.lapsesDue = s.lapsesDue := by
  unfold State.postLate
  split <;> rfl

@[simp] theorem postLate_tickTriggered (s : State) : s.postLate.tickTriggered = s.tickTriggered := by
  unfold State.postLate
  split <;> rfl

@[simp] theorem postLate_array (s : State) : s.postLate.array = s.array := by
  unfold State.postLate
  split <;> rfl

@[simp] theorem postLate_pointer (s : State) : s.postLate.pointer = s.pointer := by
  unfold State.postLate
  split <;> rfl

@[simp] theorem postLate_grant (s : State) : s.postLate.grant = s.grant := by
  unfold State.postLate
  split <;> rfl

@[simp] theorem postLate_anchors (s : State) : s.postLate.anchors = s.anchors := by
  unfold State.postLate
  split <;> rfl

@[simp] theorem postLate_watches (s : State) : s.postLate.watches = s.watches := by
  unfold State.postLate
  split <;> rfl

@[simp] theorem postLate_channels (s : State) : s.postLate.channels = s.channels := by
  unfold State.postLate
  split <;> rfl

@[simp] theorem postLate_enginePointer (s : State) : s.postLate.enginePointer = s.enginePointer := by
  unfold State.postLate
  split <;> rfl

@[simp] theorem postLate_pending (s : State) : s.postLate.pending = s.pending := by
  unfold State.postLate
  split <;> rfl

@[simp] theorem postLate_lateNotice (s : State) : s.postLate.lateNotice = none := by
  unfold State.postLate
  split
  · assumption
  · rfl

/-- Each port after the post of the notice that was kept. -/
theorem port_postLate (s : State) (p : PortId) :
    s.postLate.port p =
      match s.lateNotice with
      | none => s.port p
      | some l => if l.ports.getLsbD p.val then (s.port p).post l.notice else s.port p := by
  cases h : s.lateNotice with
  | none => simp only [State.postLate, h]
  | some l =>
    simp only [State.postLate, h]
    exact port_postTo _ _ _ _

/-- A run-end notice posted at once leaves what is kept; one that is kept posts what was kept before it. -/
theorem postRunEnd_atOnce (s : State) (set : BitVec 4) (n : Notice) : s.postRunEnd .atOnce set n = s.postTo set n := rfl

theorem postRunEnd_afterNext (s : State) (set : BitVec 4) (n : Notice) :
    s.postRunEnd .afterNext set n = { s.postLate with lateNotice := some ⟨set, n⟩ } := rfl

end Sys2Proof.Machine
end

