-- ==== Sys2Proof/Laws/Frames.lean ====
section
/-! SUPPORT. What a frame end does, case by case: nothing due before it, the verdict of each check of R156, and a request
taken and applied at its taking. -/

namespace Sys2Proof.Machine

/-- A port's request that waited for the access completion, applied (R160). -/
theorem applyDeferred_deferred {s : State} {p : PortId} {r : Request} (h : (s.port p).inFlight = some (.deferred r)) :
    s.applyDeferred p = s.applyAndComplete p r := by
  simp [State.applyDeferred, h]

/-- An abort that waited for its channel's segment, applied (R132). -/
theorem applyDeferred_abort {s : State} {p : PortId} {k : ChannelId}
    (h : (s.port p).inFlight = some (.afterSegment k)) :
    s.applyDeferred p = s.applyAndComplete p (.abortChannel (BitVec.ofNat 8 k.val)) := by
  simp [State.applyDeferred, h]

/-- A request that waits for no access completion is not applied by one. -/
theorem applyDeferred_none {s : State} {p : PortId} (h : (s.port p).waitsForCompletion = false) :
    s.applyDeferred p = s := by
  unfold State.applyDeferred Port.waitsForCompletion at *
  split <;> simp_all

theorem finishLapses_none {s : State} (h : s.lapsesDue = []) : s.finishLapses = s := by
  cases s
  simp_all [State.finishLapses]

theorem postLate_none {s : State} (h : s.lateNotice = none) : s.postLate = s := by
  simp [State.postLate, h]

theorem postLate_some {s : State} {l : LateNotice} (h : s.lateNotice = some l) :
    s.postLate = ({ s with lateNotice := none } : State).postTo l.ports l.notice := by
  simp [State.postLate, h]

@[simp] theorem applyWaiting_request (s : State) (p : PortId) : s.applyWaiting (.request p) = s.applyDeferred p := rfl

@[simp] theorem applyWaiting_tick (s : State) : s.applyWaiting .tick = s.wholeTick := rfl

@[simp] theorem enqueue_deferredOrder (s : State) (d : Deferred) :
    (s.enqueue d).deferredOrder = s.deferredOrder ++ [d] := rfl

@[simp] theorem enqueue_grant (s : State) (d : Deferred) : (s.enqueue d).grant = s.grant := rfl

@[simp] theorem enqueue_ports (s : State) (d : Deferred) : (s.enqueue d).ports = s.ports := rfl

@[simp] theorem enqueue_watches (s : State) (d : Deferred) : (s.enqueue d).watches = s.watches := rfl

theorem applyAllDeferred_none {s : State} (h : s.deferredOrder = []) : s.applyAllDeferred = s := by
  cases s
  simp_all [State.applyAllDeferred]

/-- While a grant holds the array, nothing has waited for its completion long enough. -/
theorem afterCompletion_granted {s : State} {g : Grant} (h : s.grant = some g) : s.afterCompletion = s := by
  simp [State.afterCompletion, h]

/-- Once the array is free: what waited, in the order in which it came (R132, R160, R83). -/
theorem afterCompletion_free {s : State} (h : s.grant = none) : s.afterCompletion = s.applyAllDeferred := by
  simp [State.afterCompletion, h]

/-- Nothing waited for the last access completion. -/
theorem afterCompletion_none {s : State} (h : s.grant = none → s.deferredOrder = []) : s.afterCompletion = s := by
  cases hg : s.grant with
  | some g => exact afterCompletion_granted hg
  | none => rw [afterCompletion_free hg, applyAllDeferred_none (h hg)]

/-- Where nothing is due, nothing is done before the command. -/
theorem settle_settled {s : State} (h : s.settled) : s.settle = s := by
  unfold State.settle
  rw [finishLapses_none h.1, postLate_none h.2.1, afterCompletion_none h.2.2]

/-- Where nothing but a run-end notice is due, nothing is done before a grant. -/
theorem clearWay_settled {s : State} (hl : s.lapsesDue = []) (h : s.grant = none → s.deferredOrder = []) :
    s.clearWay = s := by
  unfold State.clearWay
  rw [finishLapses_none hl, afterCompletion_none h]

theorem wakePort_awake {s : State} {p : PortId} (h : (s.port p).mode ≠ .dozing) : s.wakePort p = s := by
  simp [State.wakePort, h]

theorem openFrame_open {s : State} {p : PortId} (h : s.frameOpen p) : s.openFrame p = s := by
  obtain ⟨-, -, hm, o, ho, -⟩ := h
  unfold State.openFrame
  rw [Option.mem_def.mp ho, wakePort_awake hm]
  rfl

theorem closeFrame_eq_frameOver (s : State) (p : PortId) (bits : Nat) : s.closeFrame p bits = s.frameOver p bits := rfl

/-- A frame end with a frame open is decided on the port as it stands. -/
theorem endFrame_open {s : State} {p : PortId} (h : s.frameOpen p) (bits : Nat) (tag : Byte) (fits : Bool)
    (kind : FrameKind) (take : State → State) :
    s.endFrame p bits tag fits kind take =
      (s.frameOver p bits).decide p tag ((s.port p).verdict bits fits kind) take := by
  unfold State.endFrame
  rw [settle_settled h.2.1, openFrame_open h]
  rfl

/-- The checks of R156 after the first, on an open frame. -/
theorem verdict_open {s : State} {p : PortId} (h : s.frameOpen p) (bits : Nat) (fits : Bool) (kind : FrameKind) :
    (s.port p).verdict bits fits kind =
      if bits = 0 then .empty
      else if !fits then .lengthFault
      else if kind = .nop then .nop
      else if (s.port p).inFlight.isSome then .busy
      else if kind = .unknown then .unknownCode
      else if (s.port p).mode = .detached ∧ kind ≠ .attach then .notAttached
      else .taken := by
  obtain ⟨-, -, -, o, ho, hr, ha⟩ := h
  unfold Port.verdict
  rw [Option.mem_def.mp ho]
  simp [hr, ha]

/-- A request frame on a port that takes it is taken. -/
theorem verdict_taken {s : State} {p : PortId} (h : s.takes p) {bits : Nat} {kind : FrameKind}
    (hb : bits ≠ 0) (hn : kind ≠ .nop) (hu : kind ≠ .unknown) : (s.port p).verdict bits true kind = .taken := by
  rw [verdict_open h.1]
  simp [hb, hn, hu, h.2.1, h.2.2]

/-- Every request frame has its code and its tag (Table 9-2). -/
theorem expectedLength_ge {code size : Byte} {n : Nat} (h : expectedLength code size = some n) : 2 ≤ n := by
  revert h
  unfold expectedLength
  repeat' split
  all_goals
    intro h
    first
      | (injection h with h; omega)
      | cases h

/-- No frame that matches its code is of no bits (R157). -/
theorem frameFits_pos {code size : Byte} {bits : Nat} (h : frameFits code size bits = true) : bits ≠ 0 := by
  rintro rfl
  unfold frameFits at h
  cases he : expectedLength code size with
  | some n =>
    have hn := expectedLength_ge he
    rw [he] at h
    have h0 : 0 = 8 * n := by simpa using h
    omega
  | none =>
    rw [he] at h
    by_cases hc : code = 0x00 <;> simp [hc] at h

/-- The state in which a port's request is applied: the frame over, the slot showing PENDING (R160). -/
def State.taken (s : State) (f : Frame) : State := (s.frameOver f.port f.bits).showPending f.port f.tag

/-- A table, port or ownership request served at its taking (R160, R161). -/
theorem requestFrame_serves {s : State} {f : Frame} (h : s.serves f.port) {code : Byte} {kind : FrameKind}
    (hf : frameFits code 0 f.bits = true) (hn : kind ≠ .nop) (hu : kind ≠ .unknown) (r : Request) :
    requestFrame f code kind r s = .next ((s.taken f).applyAndComplete f.port r) := by
  have hg : (s.frameOver f.port f.bits).grant = none := h.2
  unfold requestFrame frameEnd
  rw [if_pos h.1.1.1, endFrame_open h.1.1, hf, verdict_taken h.1 (frameFits_pos hf) hn hu]
  unfold State.decide State.takeRequest
  simp only [hg]
  rfl

/-- A memory request taken: refused at its taking, or waiting for its grant (R9, R160). -/
theorem memoryFrame_takes {s : State} {f : Frame} (h : s.takes f.port) {fits : Bool} (hb : f.bits ≠ 0)
    (hf : fits = true) (t : TargetBytes) (op : Option MemoryOp) :
    memoryFrame f fits t op s = .next ((s.frameOver f.port f.bits).takeMemory f.port f.tag (checkAtTaking t op)) := by
  unfold memoryFrame frameEnd
  rw [if_pos h.1.1, endFrame_open h.1, hf, verdict_taken h hb (by decide) (by decide)]
  rfl

/-- The completion of a request just taken, in one change of its port. -/
theorem complete_taken (s : State) (f : Frame) (code : ResultCode) (data : List Byte) :
    (s.taken f).complete f.port code data = s.answered f code data := by
  simp [State.taken, State.answered, State.showPending, State.complete, State.frameOver]

end Sys2Proof.Machine
end

