-- ==== Sys2Proof/Laws/Notices.lean ====
section
/-! SUPPORT. What a post does to its port, and that it neither sees nor changes the frame side of the port. -/

namespace Sys2Proof.Machine

/-- The frame side of a port: what frames, results and requests in flight write. -/
def Port.withFrameSide (q : Port) (slot : Slot) (inFlight : Option InFlight) (frame : Option OpenFrame)
    (shifted : Option ShiftedOut) : Port :=
  { q with slot := slot, inFlight := inFlight, frame := frame, shifted := shifted }

@[simp] theorem arrive_cursor (q : Port) (n : Nat) (c : CursorId) : (q.arrive n).cursor c = q.cursor c := by
  unfold Port.arrive Port.drive
  split <;> rfl

/-- A post moves no cursor. -/
@[simp] theorem post_cursor (q : Port) (n : Notice) (c : CursorId) : (q.post n).cursor c = q.cursor c := by
  unfold Port.post
  split
  · rfl
  · split
    · exact arrive_cursor _ _ c
    · split
      · exact arrive_cursor _ _ c
      · rfl

theorem attentionCondition_frameSide (q : Port) (a : Slot) (b : Option InFlight) (c : Option OpenFrame)
    (d : Option ShiftedOut) : (q.withFrameSide a b c d).attentionCondition = q.attentionCondition := rfl

theorem arrive_frameSide (q : Port) (i : Nat) (a : Slot) (b : Option InFlight) (c : Option OpenFrame)
    (d : Option ShiftedOut) : (q.withFrameSide a b c d).arrive i = (q.arrive i).withFrameSide a b c d := by
  have h : ((q.withFrameSide a b c d).mode = .dozing ∧ (q.withFrameSide a b c d).wake ≤ i) ↔
    (q.mode = .dozing ∧ q.wake ≤ i) := Iff.rfl
  unfold Port.arrive
  by_cases hq : q.mode = .dozing ∧ q.wake ≤ i
  · rw [if_pos hq, if_pos (h.mpr hq)]
    rfl
  · rw [if_neg hq, if_neg (mt h.mp hq)]
    rfl

/-- A post does not see the frame side of its port, and leaves it. -/
theorem post_frameSide (q : Port) (n : Notice) (a : Slot) (b : Option InFlight) (c : Option OpenFrame)
    (d : Option ShiftedOut) : (q.withFrameSide a b c d).post n = (q.post n).withFrameSide a b c d := by
  have hm : (q.withFrameSide a b c d).mode = q.mode := rfl
  have hq : (q.withFrameSide a b c d).queue = q.queue := rfl
  unfold Port.post
  rw [hm, hq]
  split_ifs
  · rfl
  · exact arrive_frameSide { q with queue := absorbInto n q.queue } n.priority a b c d
  · exact arrive_frameSide (q.append n) n.priority a b c d
  · rfl

/-- An arrival's effect on the port state and nATTN (R100, R108, R146). -/
theorem arrive_eq (q : Port) (n : Nat) (h : q.mode ≠ .detached) :
    q.arrive n =
      { q with
        mode := if q.mode = .dozing ∧ q.wake ≤ n then .attached else q.mode
        attention := decide (q.mode = .attached ∨ q.wake ≤ n) &&
          q.queue.any (fun r => decide (q.threshold ≤ r.notice.priority)) } := by
  obtain ⟨mode⟩ := q
  unfold Port.arrive Port.drive Port.attentionCondition
  cases mode <;> simp_all
  split_ifs with hw
  · simp [hw]
  · have hd : (PortMode.dozing == PortMode.attached) = false := by decide
    simp [hw, hd]

theorem post_detached (q : Port) (n : Notice) (h : q.mode = .detached) : q.post n = q := by
  simp [Port.post, h]

theorem post_drops (q : Port) (n : Notice) (h : q.mode ≠ .detached)
    (hc : n.source.coalesces = false ∨ ∀ r ∈ q.queue, r.alike n = false) (hl : Config.queueCapacity ≤ q.queue.length) :
    q.post n = { q with overrun := true } := by
  have : (n.source.coalesces && q.queue.any (fun r => r.alike n)) = false := by
    rcases hc with hc | hc
    · simp [hc]
    · simp only [Bool.and_eq_false_iff, List.any_eq_false]
      exact Or.inr (fun r hr => by simp [hc r hr])
  simp [Port.post, h, this, Nat.not_lt.mpr hl]

theorem post_appends (q : Port) (n : Notice) (h : q.mode ≠ .detached)
    (hc : n.source.coalesces = false ∨ ∀ r ∈ q.queue, r.alike n = false) (hl : q.queue.length < Config.queueCapacity) :
    q.post n = (q.append n).arrive n.priority := by
  have : (n.source.coalesces && q.queue.any (fun r => r.alike n)) = false := by
    rcases hc with hc | hc
    · simp [hc]
    · simp only [Bool.and_eq_false_iff, List.any_eq_false]
      exact Or.inr (fun r hr => by simp [hc r hr])
  simp [Port.post, h, this, hl]

theorem post_absorbs (q : Port) (n : Notice) (h : q.mode ≠ .detached) (hs : n.source.coalesces = true)
    (hr : ∃ r ∈ q.queue, r.alike n = true) :
    q.post n = Port.arrive { q with queue := absorbInto n q.queue } n.priority := by
  have : (n.source.coalesces && q.queue.any (fun r => r.alike n)) = true := by
    simpa [hs] using hr
  simp [Port.post, h, this]

theorem alike_iff (r : Record) (n : Notice) :
    r.alike n = true ↔ r.notice.source = n.source ∧ r.notice.kinds = n.kinds := by
  simp [Record.alike]

/-- The record that absorbs a notice is the oldest alike; the others stand (R97). -/
theorem absorbInto_split (n : Notice) (older newer : List Record) (r : Record) (hr : r.alike n = true)
    (ho : ∀ x ∈ older, x.alike n = false) :
    absorbInto n (older ++ r :: newer) = older ++ r.absorb n :: newer := by
  induction older with
  | nil => simp [absorbInto, hr]
  | cons x xs ih =>
    have hx : x.alike n = false := ho x List.mem_cons_self
    simp only [List.cons_append, absorbInto, hx, Bool.false_eq_true, if_false]
    rw [ih (fun y hy => ho y (List.mem_cons_of_mem _ hy))]

theorem absorbInto_length (n : Notice) (l : List Record) : (absorbInto n l).length = l.length := by
  induction l with
  | nil => rfl
  | cons r l ih =>
    unfold absorbInto
    split_ifs <;> simp [ih]

/-- A post keeps a queue within its capacity (R94). -/
theorem post_length (q : Port) (n : Notice) (h : q.queue.length ≤ Config.queueCapacity) :
    (q.post n).queue.length ≤ Config.queueCapacity := by
  have ha : ∀ (x : Port) (i : Nat), (x.arrive i).queue = x.queue := by
    intro x i
    unfold Port.arrive
    split_ifs <;> rfl
  unfold Port.post
  split_ifs with h1 h2 h3
  · exact h
  · rw [ha]
    simpa [absorbInto_length] using h
  · rw [ha]
    simp only [Port.append, List.length_append, List.length_singleton]
    omega
  · exact h

/-- The record TAKE_NOTICE selects, in a queue split at it (R102). -/
theorem topPriority_split (older newer : List Record) (r : Record)
    (ho : ∀ x ∈ older, x.notice.priority < r.notice.priority)
    (hn : ∀ x ∈ newer, x.notice.priority ≤ r.notice.priority) :
    topPriority (older ++ r :: newer) = r.notice.priority := by
  have key : ∀ (l : List Record) (m b : Nat), m ≤ b → (∀ x ∈ l, x.notice.priority ≤ b) →
      l.foldl (fun m x => max m x.notice.priority) m ≤ b := by
    intro l
    induction l with
    | nil => intro m b h _; simpa using h
    | cons x l ih =>
      intro m b h hl
      exact ih _ _ (max_le h (hl x List.mem_cons_self)) (fun y hy => hl y (List.mem_cons_of_mem _ hy))
  have low : ∀ (l : List Record) (m : Nat), m ≤ l.foldl (fun m x => max m x.notice.priority) m := by
    intro l
    induction l with
    | nil => intro m; exact le_refl _
    | cons x l ih => intro m; exact le_trans (le_max_left _ _) (ih _)
  apply le_antisymm
  · refine key _ _ _ (Nat.zero_le _) ?_
    intro x hx
    rcases List.mem_append.mp hx with hx | hx
    · exact le_of_lt (ho x hx)
    · rcases List.mem_cons.mp hx with rfl | hx
      · exact le_refl _
      · exact hn x hx
  · unfold topPriority
    rw [List.foldl_append, List.foldl_cons]
    exact le_trans (le_max_right _ _) (low _ _)

theorem selected_split (older newer : List Record) (r : Record)
    (ho : ∀ x ∈ older, x.notice.priority < r.notice.priority)
    (hn : ∀ x ∈ newer, x.notice.priority ≤ r.notice.priority) :
    selected (older ++ r :: newer) = some r := by
  unfold selected
  rw [topPriority_split older newer r ho hn, List.find?_append]
  have : older.find? (fun x => x.notice.priority == r.notice.priority) = none := by
    rw [List.find?_eq_none]
    intro x hx
    have := ho x hx
    simp only [beq_iff_eq]
    omega
  simp [this]

theorem withoutSelected_split (older newer : List Record) (r : Record)
    (ho : ∀ x ∈ older, x.notice.priority < r.notice.priority)
    (hn : ∀ x ∈ newer, x.notice.priority ≤ r.notice.priority) :
    withoutSelected (older ++ r :: newer) = older ++ newer := by
  unfold withoutSelected
  rw [topPriority_split older newer r ho hn, List.eraseP_append_right]
  · simp
  · intro x hx
    have := ho x hx
    simp only [beq_iff_eq]
    omega

end Sys2Proof.Machine
end

