-- ==== Sys2Proof/Laws/Matching.lean ====
section
/-! SUPPORT. What matching a presentation does to each watch, each port and each channel, and what it leaves. -/

namespace Sys2Proof.Machine

/-- Everything but watches, channels and ports is the same in two states. -/
def State.sameOutside (s t : State) : Prop :=
  { s with watches := t.watches, channels := t.channels, ports := t.ports } = t

theorem State.sameOutside.array {s t : State} (h : s.sameOutside t) : s.array = t.array := by
  rw [← h]

theorem State.sameOutside.trans {s t u : State} (h : s.sameOutside t) (g : t.sameOutside u) : s.sameOutside u := by
  unfold State.sameOutside at *
  rw [← g, ← h]

theorem triggerOnce_sameOutside (s : State) (sent : BitVec 4) (k : Option ChannelId) :
    s.sameOutside (s.triggerOnce sent k).1 := by
  unfold State.triggerOnce
  cases k with
  | none => rfl
  | some k =>
    simp only
    split_ifs <;> rfl

theorem triggerOnce_some (s : State) (sent : BitVec 4) (k : ChannelId) :
    s.triggerOnce sent (some k) =
      if sent.getLsbD k.val = true then (s, sent) else (s.triggerChannel k, sent ||| single k.val) := rfl

@[simp] theorem triggerOnce_watch (s : State) (sent : BitVec 4) (k : Option ChannelId) (w : WatchId) :
    (s.triggerOnce sent k).1.watch w = s.watch w := by
  unfold State.triggerOnce
  cases k with
  | none => rfl
  | some k =>
    simp only
    split_ifs <;> rfl

@[simp] theorem triggerOnce_port (s : State) (sent : BitVec 4) (k : Option ChannelId) (p : PortId) :
    (s.triggerOnce sent k).1.port p = s.port p := by
  unfold State.triggerOnce
  cases k with
  | none => rfl
  | some k =>
    simp only
    split_ifs <;> rfl

/-- The kind set of a watch for a presentation, empty where it is disabled or not touched (R70, R71). -/
def Watch.kindsFor (e : Watch) (pr : Presentation) (m : Memory) : Byte :=
  if e.config.enabled && pr.touchesRange e.config then pr.kinds e m else 0

/-- A watch after a presentation (R70 to R76). -/
def Watch.matched (e : Watch) (pr : Presentation) (m : Memory) : Watch :=
  if e.config.enabled then
    if e.kindsFor pr m = 0 then (e.evaluate pr m).reload pr else ((e.evaluate pr m).reload pr).hit
  else e

/-- A port after one watch has been matched (R73). -/
def Port.afterMatch (q : PortId) (w : WatchId) (e : Watch) (pr : Presentation) (m : Memory) (x : Port) : Port :=
  if e.kindsFor pr m ≠ 0 ∧ (e.audience pr.actor).getLsbD q.val = true then
    x.post (e.indication w pr (e.kindsFor pr m) m) else x

/-- The channel that one watch's indication triggers (R77). -/
def Watch.triggers (e : Watch) (pr : Presentation) (m : Memory) : Option ChannelId :=
  if e.kindsFor pr m ≠ 0 then e.triggerFor pr.actor (e.kindsFor pr m) else none

/-- One watch matched, part by part. -/
theorem matchWatch_spec (pr : Presentation) (s : State) (sent : BitVec 4) (w : WatchId) :
    s.sameOutside (matchWatch pr (s, sent) w).1 ∧
    (∀ v, (matchWatch pr (s, sent) w).1.watch v = if w = v then (s.watch w).matched pr s.array else s.watch v) ∧
    (∀ q, (matchWatch pr (s, sent) w).1.port q = (s.port q).afterMatch q w (s.watch w) pr s.array) ∧
    (matchWatch pr (s, sent) w).1.channels =
      (s.triggerOnce sent ((s.watch w).triggers pr s.array)).1.channels ∧
    (matchWatch pr (s, sent) w).2 = (s.triggerOnce sent ((s.watch w).triggers pr s.array)).2 := by
  unfold matchWatch
  by_cases he : (s.watch w).config.enabled = true
  · by_cases hk : (s.watch w).kindsFor pr s.array = 0
    · have hk' : (if pr.touchesRange (s.watch w).config then pr.kinds (s.watch w) s.array else 0) = 0 := by
        simpa [Watch.kindsFor, he] using hk
      simp only [he, Bool.not_true, Bool.false_eq_true, if_false, hk', if_true, Watch.triggers, hk, ne_eq,
        not_true_eq_false]
      refine ⟨rfl, ?_, ?_, rfl, rfl⟩
      · intro v
        rw [watch_setWatch]
        simp [Watch.matched, he, hk]
      · intro q
        simp [Port.afterMatch, hk]
    · have hk' : (if pr.touchesRange (s.watch w).config then pr.kinds (s.watch w) s.array else 0) =
          (s.watch w).kindsFor pr s.array := by
        simp [Watch.kindsFor, he]
      simp only [he, Bool.not_true, Bool.false_eq_true, if_false, hk', Watch.triggers, ne_eq, hk,
        not_false_eq_true, if_true]
      refine ⟨?_, ?_, ?_, ?_, ?_⟩
      · refine State.sameOutside.trans ?_ (triggerOnce_sameOutside _ _ _)
        rfl
      · intro v
        rw [triggerOnce_watch, watch_postTo_frame, watch_setWatch]
        simp only [Watch.matched, he, if_true, if_neg hk]
      · intro q
        rw [triggerOnce_port, port_postTo]
        simp only [Port.afterMatch, ne_eq, hk, not_false_eq_true, true_and, port_setWatch_frame]
      · unfold State.triggerOnce
        split
        · rfl
        · split_ifs <;> rfl
      · unfold State.triggerOnce
        split
        · rfl
        · split_ifs <;> rfl
  · have he' : (s.watch w).config.enabled = false := by simpa using he
    have hk : (s.watch w).kindsFor pr s.array = 0 := by simp [Watch.kindsFor, he']
    simp only [he', Bool.not_false, if_true, Watch.triggers, hk, ne_eq, not_true_eq_false, if_false]
    refine ⟨rfl, ?_, ?_, rfl, rfl⟩
    · intro v
      by_cases h : w = v
      · subst h
        simp [Watch.matched, he']
      · simp [h]
    · intro q
      simp [Port.afterMatch, hk]

/-- A list of watches matched in its order, each once: watches and ports part by part. -/
theorem foldMatch_spec (pr : Presentation) (ws : List WatchId) (hn : ws.Nodup) (s : State) (sent : BitVec 4) :
    s.sameOutside (ws.foldl (matchWatch pr) (s, sent)).1 ∧
    (∀ v, (ws.foldl (matchWatch pr) (s, sent)).1.watch v =
      if v ∈ ws then (s.watch v).matched pr s.array else s.watch v) ∧
    ∀ q, (ws.foldl (matchWatch pr) (s, sent)).1.port q =
      ws.foldl (fun x w => x.afterMatch q w (s.watch w) pr s.array) (s.port q) := by
  induction ws generalizing s sent with
  | nil => exact ⟨rfl, fun v => by simp, fun q => rfl⟩
  | cons w ws ih =>
    obtain ⟨hw, hn⟩ := List.nodup_cons.mp hn
    obtain ⟨h1, h2, h3, -, -⟩ := matchWatch_spec pr s sent w
    obtain ⟨g1, g2, g3⟩ := ih hn (matchWatch pr (s, sent) w).1 (matchWatch pr (s, sent) w).2
    have ha := State.sameOutside.array h1
    rw [List.foldl_cons]
    refine ⟨State.sameOutside.trans h1 g1, ?_, ?_⟩
    · intro v
      rw [g2 v, h2 v, ← ha]
      by_cases hv : v = w
      · subst hv
        simp [hw]
      · have hv' : ¬ w = v := fun e => hv e.symm
        simp [hv, hv']
    · intro q
      rw [g3 q, h3 q, ← ha, List.foldl_cons]
      apply List.foldl_ext
      intro x v hv
      have hv' : ¬ w = v := fun e => hw (e ▸ hv)
      rw [h2 v, if_neg hv']

theorem watchIds_nodup : watchIds.Nodup := by decide

theorem mem_watchIds (w : WatchId) : w ∈ watchIds := by
  revert w
  decide

/-- A presentation matched: each watch and each port, and all that stands (R70 to R76, R79). -/
theorem matchAll_spec (s : State) (pr : Presentation) :
    s.sameOutside (s.matchAll pr) ∧
    (∀ w, (s.matchAll pr).watch w = (s.watch w).matched pr s.array) ∧
    ∀ q, (s.matchAll pr).port q =
      watchIds.foldl (fun x w => x.afterMatch q w (s.watch w) pr s.array) (s.port q) := by
  obtain ⟨h1, h2, h3⟩ := foldMatch_spec pr watchIds watchIds_nodup s 0
  exact ⟨h1, fun w => (h2 w).trans (if_pos (mem_watchIds w)), h3⟩

/-- Matching moves no cursor. -/
@[simp] theorem matchAll_cursor (s : State) (pr : Presentation) (q : PortId) (c : CursorId) :
    ((s.matchAll pr).port q).cursor c = (s.port q).cursor c := by
  rw [(matchAll_spec s pr).2.2 q]
  generalize s.port q = x
  induction watchIds generalizing x with
  | nil => rfl
  | cons w ws ih =>
    rw [List.foldl_cons, ih]
    unfold Port.afterMatch
    split_ifs
    · exact post_cursor x _ c
    · rfl

/-- A set holds the channels put into it. -/
theorem getLsbD_single (k j : ChannelId) : (single k.val : BitVec 4).getLsbD j.val = decide (k = j) := by
  revert k j
  decide

/-- The channels after a list of watches, each channel triggered at most once (R77). -/
theorem foldMatch_channels (pr : Presentation) (ws : List WatchId) (hn : ws.Nodup) (s : State) (sent : BitVec 4)
    (k : ChannelId) :
    ((ws.foldl (matchWatch pr) (s, sent)).1.channel k =
      if sent.getLsbD k.val = false ∧ ∃ w ∈ ws, (s.watch w).triggers pr s.array = some k then
        (s.channel k).trigger else s.channel k) ∧
    (ws.foldl (matchWatch pr) (s, sent)).2.getLsbD k.val =
      (sent.getLsbD k.val || decide (∃ w ∈ ws, (s.watch w).triggers pr s.array = some k)) := by
  induction ws generalizing s sent with
  | nil => simp
  | cons w ws ih =>
    obtain ⟨hw, hn⟩ := List.nodup_cons.mp hn
    obtain ⟨h1, h2, -, h4, h5⟩ := matchWatch_spec pr s sent w
    have ha := State.sameOutside.array h1
    have hrest : (∃ v ∈ ws, ((matchWatch pr (s, sent) w).1.watch v).triggers pr
        (matchWatch pr (s, sent) w).1.array = some k) ↔
        ∃ v ∈ ws, (s.watch v).triggers pr s.array = some k := by
      constructor
      · rintro ⟨v, hv, h⟩
        have hv' : ¬ w = v := fun e => hw (e ▸ hv)
        rw [h2 v, if_neg hv', ← ha] at h
        exact ⟨v, hv, h⟩
      · rintro ⟨v, hv, h⟩
        have hv' : ¬ w = v := fun e => hw (e ▸ hv)
        refine ⟨v, hv, ?_⟩
        rw [h2 v, if_neg hv', ← ha]
        exact h
    have hc : (matchWatch pr (s, sent) w).1.channel k =
        if sent.getLsbD k.val = false ∧ (s.watch w).triggers pr s.array = some k then
          (s.channel k).trigger else s.channel k := by
      have : (matchWatch pr (s, sent) w).1.channel k =
          (s.triggerOnce sent ((s.watch w).triggers pr s.array)).1.channel k := by
        unfold State.channel
        rw [h4]
      rw [this]
      cases ht : (s.watch w).triggers pr s.array with
      | none => simp [State.triggerOnce]
      | some j =>
        rw [triggerOnce_some]
        by_cases hj : j = k
        · subst hj
          cases hb : sent.getLsbD j.val
          · rw [if_neg (by decide), if_pos ⟨rfl, rfl⟩]
            exact channel_setChannel_same _ _ _
          · rw [if_pos rfl, if_neg (fun h => Bool.noConfusion h.1)]
        · have hj' : ¬ some j = some k := fun e => hj (Option.some.inj e)
          have hr : ¬ (sent.getLsbD k.val = false ∧ some j = some k) := fun h => hj' h.2
          rw [if_neg hr]
          by_cases hb : sent.getLsbD j.val = true
          · rw [if_pos hb]
          · rw [if_neg hb]
            exact channel_setChannel_other _ _ hj
    have hs : (matchWatch pr (s, sent) w).2.getLsbD k.val =
        (sent.getLsbD k.val || decide ((s.watch w).triggers pr s.array = some k)) := by
      rw [h5]
      cases ht : (s.watch w).triggers pr s.array with
      | none => simp [State.triggerOnce]
      | some j =>
        rw [triggerOnce_some]
        cases hb : sent.getLsbD j.val
        · rw [if_neg (by decide)]
          simp only [BitVec.getLsbD_or, getLsbD_single, Option.some.injEq]
        · rw [if_pos rfl]
          by_cases hj : j = k
          · subst hj
            rw [hb]
            rfl
          · have hj' : ¬ some j = some k := fun e => hj (Option.some.inj e)
            rw [decide_eq_false hj', Bool.or_false]
    obtain ⟨g1, g2⟩ := ih hn (matchWatch pr (s, sent) w).1 (matchWatch pr (s, sent) w).2
    rw [List.foldl_cons]
    constructor
    · rw [g1, hc, hs]
      simp only [hrest]
      have he : (∃ v ∈ w :: ws, (s.watch v).triggers pr s.array = some k) ↔
          (s.watch w).triggers pr s.array = some k ∨ ∃ v ∈ ws, (s.watch v).triggers pr s.array = some k := by
        simp
      simp only [he]
      by_cases hx : (s.watch w).triggers pr s.array = some k
      · cases hb : sent.getLsbD k.val <;> simp [hx]
      · cases hb : sent.getLsbD k.val <;> simp [hx]
    · rw [g2, hs]
      simp only [hrest]
      by_cases hx : (s.watch w).triggers pr s.array = some k
      · simp [hx]
      · simp [hx]

/-- Each channel after a presentation (R77). -/
theorem matchAll_channel (s : State) (pr : Presentation) (k : ChannelId) :
    (s.matchAll pr).channel k =
      if ∃ w, (s.watch w).triggers pr s.array = some k then (s.channel k).trigger else s.channel k := by
  have h := (foldMatch_channels pr watchIds watchIds_nodup s 0 k).1
  have e : (∃ w ∈ watchIds, (s.watch w).triggers pr s.array = some k) ↔
      ∃ w, (s.watch w).triggers pr s.array = some k :=
    ⟨fun ⟨w, _, h⟩ => ⟨w, h⟩, fun ⟨w, h⟩ => ⟨w, mem_watchIds w, h⟩⟩
  unfold State.matchAll
  rw [h]
  simp [e]

end Sys2Proof.Machine
end

