-- ==== Sys2Proof/Laws/Memory.lean ====
section
/-! SUPPORT. The shared array: every store keeps its listed form, a byte stored is the byte read, no other byte
changes, and arrays in the listed form that read alike are equal. -/

namespace Sys2Proof.Machine

theorem Memory.wf_cons (c : Host.Cell) (m : Memory) :
    Memory.wf (c :: m) = true ↔
      c.2 ≠ 0 ∧ c.1 < Config.arraySize ∧ (∀ d ∈ m, c.1 < d.1) ∧ Memory.wf m = true := by
  simp [Memory.wf, and_assoc]

/-- A store adds no address but its own. -/
theorem Memory.mem_write {m : Memory} {a : Nat} {v : Byte} {d : Host.Cell} (h : d ∈ m.write a v) :
    d ∈ m ∨ d.1 = a := by
  induction m with
  | nil =>
    unfold Memory.write at h
    split at h <;> simp_all
  | cons c m ih =>
    unfold Memory.write at h
    split_ifs at h
    · exact Or.inl h
    · rcases List.mem_cons.mp h with rfl | h
      · exact Or.inr rfl
      · exact Or.inl h
    · exact Or.inl (List.mem_cons_of_mem _ h)
    · rcases List.mem_cons.mp h with rfl | h
      · exact Or.inr rfl
      · exact Or.inl (List.mem_cons_of_mem _ h)
    · rcases List.mem_cons.mp h with rfl | h
      · exact Or.inl List.mem_cons_self
      · rcases ih h with h | h
        · exact Or.inl (List.mem_cons_of_mem _ h)
        · exact Or.inr h

/-- A store inside the array keeps the listed form. -/
theorem Memory.wf_write {m : Memory} {a : Nat} {v : Byte} (h : m.wf = true) (ha : a < Config.arraySize) :
    (m.write a v).wf = true := by
  induction m with
  | nil =>
    unfold Memory.write
    split_ifs with hv
    · rfl
    · exact (Memory.wf_cons _ _).mpr ⟨hv, ha, by simp, rfl⟩
  | cons c m ih =>
    have hc := (Memory.wf_cons c m).mp h
    unfold Memory.write
    split_ifs with h1 hv h2 hv
    · exact h
    · refine (Memory.wf_cons _ _).mpr ⟨hv, ha, ?_, h⟩
      intro d hd
      rcases List.mem_cons.mp hd with rfl | hd
      · exact h1
      · exact lt_trans h1 (hc.2.2.1 d hd)
    · exact hc.2.2.2
    · exact (Memory.wf_cons _ _).mpr ⟨hv, ha, fun d hd => h2 ▸ hc.2.2.1 d hd, hc.2.2.2⟩
    · refine (Memory.wf_cons _ _).mpr ⟨hc.1, hc.2.1, ?_, ih hc.2.2.2⟩
      intro d hd
      rcases Memory.mem_write hd with hd | hd
      · exact hc.2.2.1 d hd
      · omega

/-- Stores inside the array keep the listed form. -/
theorem Memory.wf_writeAll {m : Memory} {addrs : List Nat} {bytes : List Byte} (h : m.wf = true)
    (ha : inArray addrs = true) : (m.writeAll addrs bytes).wf = true := by
  unfold Memory.writeAll
  induction addrs generalizing m bytes with
  | nil => simpa using h
  | cons a as ih =>
    cases bytes with
    | nil => simpa using h
    | cons b bs =>
      have ha' : a < Config.arraySize ∧ inArray as = true := by simpa [inArray] using ha
      simpa using ih (Memory.wf_write h ha'.1) ha'.2

/-- An address below every listed one reads 0. -/
theorem Memory.read_below {m : Memory} {a : Nat} (h : ∀ d ∈ m, a < d.1) : m.read a = 0 := by
  induction m with
  | nil => rfl
  | cons c m ih =>
    have hc := h c List.mem_cons_self
    unfold Memory.read
    rw [if_neg (by omega)]
    exact ih (fun d hd => h d (List.mem_cons_of_mem _ hd))

/-- A store is seen at its address. -/
theorem Memory.read_write_same {m : Memory} {a : Nat} {v : Byte} (h : m.wf = true) : (m.write a v).read a = v := by
  induction m with
  | nil =>
    unfold Memory.write
    split_ifs with hv
    · simp [Memory.read, hv]
    · simp [Memory.read]
  | cons c m ih =>
    have hc := (Memory.wf_cons c m).mp h
    unfold Memory.write
    split_ifs with h1 hv h2 hv
    · rw [hv]
      refine Memory.read_below ?_
      intro d hd
      rcases List.mem_cons.mp hd with rfl | hd
      · exact h1
      · exact lt_trans h1 (hc.2.2.1 d hd)
    · simp [Memory.read]
    · rw [hv]
      exact Memory.read_below (fun d hd => h2 ▸ hc.2.2.1 d hd)
    · simp [Memory.read]
    · unfold Memory.read
      rw [if_neg h2]
      exact ih hc.2.2.2

/-- A store is seen at no other address. -/
theorem Memory.read_write_other {m : Memory} {a b : Nat} {v : Byte} (h : b ≠ a) : (m.write a v).read b = m.read b := by
  induction m with
  | nil =>
    unfold Memory.write
    split_ifs
    · rfl
    · simp [Memory.read, Ne.symm h]
  | cons c m ih =>
    unfold Memory.write
    split_ifs with h1 hv h2 hv
    · rfl
    · simp [Memory.read, Ne.symm h]
    · have : c.1 ≠ b := by omega
      simp [Memory.read, this]
    · have : c.1 ≠ b := by omega
      simp [Memory.read, this, Ne.symm h]
    · unfold Memory.read
      split_ifs
      · rfl
      · exact ih

/-- Stores are seen at no address that is not among theirs. -/
theorem Memory.read_writeAll_other {m : Memory} {addrs : List Nat} {bytes : List Byte} {b : Nat} (h : b ∉ addrs) :
    (m.writeAll addrs bytes).read b = m.read b := by
  unfold Memory.writeAll
  induction addrs generalizing m bytes with
  | nil => rfl
  | cons a as ih =>
    cases bytes with
    | nil => rfl
    | cons v vs =>
      have h1 : b ≠ a := fun e => h (e ▸ List.mem_cons_self)
      have h2 : b ∉ as := fun e => h (List.mem_cons_of_mem _ e)
      have := ih (m := m.write a v) (bytes := vs) h2
      simp only [List.zip_cons_cons, List.foldl_cons]
      rw [this, Memory.read_write_other h1]

/-- Bytes stored at different addresses are the bytes read there. -/
theorem Memory.readAll_writeAll {m : Memory} {addrs : List Nat} {bytes : List Byte} (h : m.wf = true)
    (ha : inArray addrs = true) (hn : addrs.Nodup) (hl : bytes.length = addrs.length) :
    (m.writeAll addrs bytes).readAll addrs = bytes := by
  induction addrs generalizing m bytes with
  | nil => simp_all [Memory.readAll]
  | cons a as ih =>
    cases bytes with
    | nil => simp at hl
    | cons v vs =>
      have ha' : a < Config.arraySize ∧ inArray as = true := by simpa [inArray] using ha
      have hn' := List.nodup_cons.mp hn
      have hw : m.writeAll (a :: as) (v :: vs) = (m.write a v).writeAll as vs := rfl
      have hr := ih (m := m.write a v) (bytes := vs) (Memory.wf_write h ha'.1) ha'.2 hn'.2 (by simpa using hl)
      rw [hw]
      unfold Memory.readAll at hr ⊢
      rw [List.map_cons, hr, Memory.read_writeAll_other hn'.1, Memory.read_write_same h]

/-- Arrays in the listed form that read alike everywhere are equal. -/
theorem Memory.ext_read {m n : Memory} (hm : m.wf = true) (hn : n.wf = true) (h : ∀ a, m.read a = n.read a) :
    m = n := by
  induction m generalizing n with
  | nil =>
    cases n with
    | nil => rfl
    | cons d n =>
      have hd := (Memory.wf_cons d n).mp hn
      have := h d.1
      simp [Memory.read] at this
      exact absurd this.symm hd.1
  | cons c m ih =>
    have hc := (Memory.wf_cons c m).mp hm
    cases n with
    | nil =>
      have := h c.1
      simp [Memory.read] at this
      exact absurd this hc.1
    | cons d n =>
      have hd := (Memory.wf_cons d n).mp hn
      have e1 : c.1 = d.1 := by
        rcases lt_trichotomy c.1 d.1 with l | e | l
        · have := h c.1
          rw [Memory.read_below (m := d :: n) (a := c.1)] at this
          · simp [Memory.read] at this
            exact absurd this hc.1
          · intro x hx
            rcases List.mem_cons.mp hx with rfl | hx
            · exact l
            · exact lt_trans l (hd.2.2.1 x hx)
        · exact e
        · have := h d.1
          rw [Memory.read_below (m := c :: m) (a := d.1)] at this
          · simp [Memory.read] at this
            exact absurd this.symm hd.1
          · intro x hx
            rcases List.mem_cons.mp hx with rfl | hx
            · exact l
            · exact lt_trans l (hc.2.2.1 x hx)
      have e2 : c.2 = d.2 := by
        have := h c.1
        simpa [Memory.read, e1] using this
      have e3 : m = n := by
        refine ih hc.2.2.2 hd.2.2.2 ?_
        intro a
        by_cases he : c.1 = a
        · rw [Memory.read_below (fun x hx => he ▸ hc.2.2.1 x hx),
            Memory.read_below (fun x hx => (he ▸ e1.symm : d.1 = a) ▸ hd.2.2.1 x hx)]
        · have hde : d.1 ≠ a := fun x => he (e1.trans x)
          have := h a
          simpa [Memory.read, he, hde] using this
      exact List.cons_eq_cons.mpr ⟨Prod.ext e1 e2, e3⟩

/-- The array at reset is in the listed form. -/
theorem Memory.wf_reset : State.reset.array.wf = true := rfl

end Sys2Proof.Machine
end

