-- ==== Sys2Proof/Laws/Grants.lean ====
section
/-! SUPPORT. What a grant does, step by step: the arbiter's choice, the holds, the access, the completion. -/

namespace Sys2Proof.Machine

/-- The completion of an access that has just taken the array (R18). -/
theorem completeAccess_holdArray (t : State) (p : PortId) (c : ResultCode) (d : List Byte) (post : RunEndPost)
    (hg : t.grant = none) : (t.holdArray p c d).completeAccess post = t.complete p c d := by
  have h : ({ t.holdArray p c d with grant := none } : State) = t.setInFlight p .granted := by
    unfold State.holdArray State.setInFlight State.modPort State.setPort
    simp only [State.mk.injEq, true_and, and_true]
    exact hg.symm
  have h1 : (t.holdArray p c d).completeAccess post =
      ({ t.holdArray p c d with grant := none } : State).complete p c d := rfl
  rw [h1, h]
  simp [State.complete, State.setInFlight]

/-- The completion of a segment that has just taken the array (R126). -/
theorem completeAccess_segment (t : State) (k : ChannelId) (moved : Option Nat) (post : RunEndPost)
    (hg : t.grant = none) :
    ({ t with grant := some (.segment k moved) } : State).completeAccess post = t.segmentCompletes k moved post := by
  have : ({ t with grant := none } : State) = t := by
    cases t
    simp_all
  simp only [State.completeAccess]
  rw [this]

/-- The same where no run-end notice is still to be posted. -/
theorem postLate_completeAccess_segment (t : State) (k : ChannelId) (moved : Option Nat) (post : RunEndPost)
    (hl : t.lateNotice = none) (hg : t.grant = none) :
    ({ t with grant := some (.segment k moved) } : State).postLate.completeAccess post =
      t.segmentCompletes k moved post := by
  have h : ({ t with grant := some (.segment k moved) } : State).lateNotice = none := hl
  rw [postLate_none h, completeAccess_segment t k moved post hg]

theorem holdArray_lateNotice (s : State) (p : PortId) (c : ResultCode) (d : List Byte) :
    (s.holdArray p c d).lateNotice = s.lateNotice := rfl

theorem advancePointer_port (s : State) (p : PortId) :
    s.advancePointer ⟨p.val, by omega⟩ = { s with pointer := ⟨p.val + 1, by omega⟩ } := by
  unfold State.advancePointer
  congr 1
  revert p
  decide

/-- A port's grant, from the arbiter's choice on: its access, then a run-end notice still to be posted, then its
completion. -/
theorem execMemoryGrant_chosen {s : State} {p : PortId} {r : MemoryRequest} (hs : s.clearWay = s)
    (hc : s.memoryChoice = some (p, r)) :
    execMemoryGrant .whole s =
      andThen (beginAccess p r { s with pointer := ⟨p.val + 1, by omega⟩ })
        (fun t => t.postLate.completeAccess .atOnce) := by
  unfold execMemoryGrant grantMemory
  simp only [hs, hc, advancePointer_port]

/-- A segment's grant, from the arbiter's choice on: its steps, then a run-end notice still to be posted, then its
completion. -/
theorem execSegmentGrant_chosen {s : State} {k : ChannelId} (post : RunEndPost) (hs : s.clearWay = s)
    (hc : s.segmentChoice = some k) :
    execSegmentGrant (.whole post) s =
      andThen (beginSegment k { s with pointer := 0 }) (fun t => t.postLate.completeAccess post) := by
  unfold execSegmentGrant grantSegment
  simp only [hs, hc]
  rfl

/-- What a storing motion leaves: one cursor of its port apart, everything. -/
theorem storeMotion_fields (s : State) (p : PortId) (m : Option (CursorId × Nat)) :
    { s.storeMotion p m with ports := s.ports } = s := by
  unfold State.storeMotion
  cases m with
  | none => rfl
  | some m => rfl

theorem storeMotion_none (s : State) (p : PortId) : s.storeMotion p none = s := rfl

/-- The port whose cursor moves: that cursor keeps its anchor and takes the stored offset, and nothing else of the port
changes (R38). -/
theorem storeMotion_port (s : State) (p : PortId) (c : CursorId) (offset : Nat) :
    (s.storeMotion p (some (c, offset))).port p =
      (s.port p).setCursor c (((s.port p).cursor c).map (fun b => ⟨b.anchor, offset⟩)) := by
  simp [State.storeMotion]

theorem storeMotion_port_other (s : State) (p q : PortId) (m : Option (CursorId × Nat)) (h : p ≠ q) :
    (s.storeMotion p m).port q = s.port q := by
  cases m with
  | none => rfl
  | some m => simp [State.storeMotion, port_modPort, h]

theorem storeMotion_grant (s : State) (p : PortId) (m : Option (CursorId × Nat)) :
    (s.storeMotion p m).grant = s.grant := by
  unfold State.storeMotion
  cases m <;> rfl

theorem storeMotion_lateNotice (s : State) (p : PortId) (m : Option (CursorId × Nat)) :
    (s.storeMotion p m).lateNotice = s.lateNotice := by
  unfold State.storeMotion
  cases m <;> rfl

theorem storeMotion_array (s : State) (p : PortId) (m : Option (CursorId × Nat)) :
    (s.storeMotion p m).array = s.array := by
  unfold State.storeMotion
  cases m <;> rfl

theorem matchAll_grant (s : State) (pr : Presentation) : (s.matchAll pr).grant = s.grant := by
  rw [← (matchAll_spec s pr).1]

theorem matchAll_lateNotice (s : State) (pr : Presentation) : (s.matchAll pr).lateNotice = s.lateNotice := by
  rw [← (matchAll_spec s pr).1]

theorem matchAll_array (s : State) (pr : Presentation) : (s.matchAll pr).array = s.array := by
  rw [← (matchAll_spec s pr).1]

theorem matchAll_anchors (s : State) (pr : Presentation) : (s.matchAll pr).anchors = s.anchors := by
  rw [← (matchAll_spec s pr).1]

/-- Watches and ports aside, what stands through two changes stands through both. -/
theorem aside_trans {s t u : State} (h : { t with watches := s.watches, ports := s.ports } = s)
    (g : { u with watches := t.watches, ports := t.ports } = t) :
    { u with watches := s.watches, ports := s.ports } = s := by
  have : { u with watches := s.watches, ports := s.ports } =
      { ({ u with watches := t.watches, ports := t.ports } : State) with watches := s.watches, ports := s.ports } := rfl
  rw [this, g, h]

/-- The BLOCKED indications of a list of watches, each once (R67). -/
theorem foldBlock_spec (writer : Actor) (addrs : List Nat) (address size : Nat) (ws : List WatchId) (hn : ws.Nodup)
    (s : State) :
    { ws.foldl (State.block writer addrs address size) s with watches := s.watches, ports := s.ports } = s ∧
    (∀ v, (ws.foldl (State.block writer addrs address size) s).watch v =
      if v ∈ ws ∧ (s.watch v).refuses writer addrs = true then (s.watch v).hit else s.watch v) ∧
    ∀ q, (ws.foldl (State.block writer addrs address size) s).port q =
      ws.foldl (fun x w =>
        if (s.watch w).refuses writer addrs = true ∧ ((s.watch w).audience writer).getLsbD q.val = true then
          x.post (accessNotice w kindBlocked (s.watch w).config.priority writer address size none)
        else x) (s.port q) := by
  induction ws generalizing s with
  | nil => exact ⟨rfl, fun v => by simp, fun q => rfl⟩
  | cons w ws ih =>
    obtain ⟨hw, hn⟩ := List.nodup_cons.mp hn
    have e1 : { s.block writer addrs address size w with watches := s.watches, ports := s.ports } = s := by
      unfold State.block
      simp only
      split_ifs <;> rfl
    have e2 : ∀ v, (s.block writer addrs address size w).watch v =
        if w = v ∧ (s.watch v).refuses writer addrs = true then (s.watch v).hit else s.watch v := by
      intro v
      unfold State.block
      simp only
      by_cases hr : (s.watch w).refuses writer addrs = true
      · rw [if_pos hr, watch_postTo_frame, watch_setWatch]
        by_cases hv : w = v
        · subst hv
          simp [hr]
        · simp [hv]
      · rw [if_neg hr]
        by_cases hv : w = v
        · subst hv
          simp [hr]
        · simp [hv]
    have e3 : ∀ q, (s.block writer addrs address size w).port q =
        if (s.watch w).refuses writer addrs = true ∧ ((s.watch w).audience writer).getLsbD q.val = true then
          (s.port q).post (accessNotice w kindBlocked (s.watch w).config.priority writer address size none)
        else s.port q := by
      intro q
      unfold State.block
      simp only
      by_cases hr : (s.watch w).refuses writer addrs = true
      · rw [if_pos hr, port_postTo, port_setWatch_frame]
        simp [hr]
      · rw [if_neg hr]
        simp [hr]
    obtain ⟨g1, g2, g3⟩ := ih hn (s.block writer addrs address size w)
    rw [List.foldl_cons]
    refine ⟨?_, ?_, ?_⟩
    · exact aside_trans e1 g1
    · intro v
      rw [g2 v, e2 v]
      by_cases hv : w = v
      · subst hv
        simp [hw]
      · have hv' : ¬ v = w := fun e => hv e.symm
        simp [hv, hv']
    · intro q
      rw [g3 q, e3 q, List.foldl_cons]
      apply List.foldl_ext
      intro x v hv
      have hv' : ¬ w = v := fun e => hw (e ▸ hv)
      have : (s.block writer addrs address size w).watch v = s.watch v := by
        rw [e2 v, if_neg (fun h => hv' h.1)]
      rw [this]

/-- The BLOCKED indications of a refused write (R67, R79). -/
theorem blockAll_spec (s : State) (writer : Actor) (addrs : List Nat) (address size : Nat) :
    { s.blockAll writer addrs address size with watches := s.watches, ports := s.ports } = s ∧
    (∀ v, (s.blockAll writer addrs address size).watch v =
      if (s.watch v).refuses writer addrs = true then (s.watch v).hit else s.watch v) ∧
    ∀ q, (s.blockAll writer addrs address size).port q =
      watchIds.foldl (fun x w =>
        if (s.watch w).refuses writer addrs = true ∧ ((s.watch w).audience writer).getLsbD q.val = true then
          x.post (accessNotice w kindBlocked (s.watch w).config.priority writer address size none)
        else x) (s.port q) := by
  obtain ⟨h1, h2, h3⟩ := foldBlock_spec writer addrs address size watchIds watchIds_nodup s
  refine ⟨h1, fun v => ?_, h3⟩
  exact (h2 v).trans (by simp only [mem_watchIds, true_and])

/-- A request that passes resolution and holds: performance, motion, matching, completion (R16). -/
theorem execMemoryGrant_performed {s : State} {p : PortId} {r : MemoryRequest} {place : Place} (hs : s.settled)
    (hg : s.grant = none) (hc : s.memoryChoice = some (p, r))
    (hr : s.resolve p r = .ok place) (hi : inArray place.addrs = true)
    (hh : r.op.writes = true → s.runHeld (.port p) place.addrs = false ∧ s.watchHeld (.port p) place.addrs = false) :
    execMemoryGrant .whole s =
      .next (((({ s with
        pointer := ⟨p.val + 1, by omega⟩
        array := (r.op.perform s.array place.addrs).array } : State).storeMotion p place.motion).matchAll
          ⟨.port p, place.addrs, firstAddress place.addrs, r.op.size, (r.op.perform s.array place.addrs).write⟩).complete
            p (r.op.perform s.array place.addrs).code (r.op.perform s.array place.addrs).data) := by
  rw [execMemoryGrant_chosen (clearWay_settled hs.1 hs.2.2) hc]
  have hr' : State.resolve { s with pointer := ⟨p.val + 1, by omega⟩ } p r = .ok place := hr
  unfold beginAccess
  rw [hr']
  simp only [hi, if_true, andThen]
  refine congrArg Host.Outcome.next ?_
  have h1 : (r.op.writes && s.runHeld (.port p) place.addrs) = false := by
    cases hw : r.op.writes
    · rfl
    · simp [(hh hw).1]
  have h2 : (r.op.writes && s.watchHeld (.port p) place.addrs) = false := by
    cases hw : r.op.writes
    · rfl
    · simp [(hh hw).2]
  have h1' : (r.op.writes && State.runHeld { s with pointer := ⟨p.val + 1, by omega⟩ } (.port p) place.addrs) = false := h1
  have h2' : (r.op.writes && State.watchHeld { s with pointer := ⟨p.val + 1, by omega⟩ } (.port p) place.addrs) = false := h2
  unfold State.accessAt
  rw [h1', h2']
  simp only [Bool.false_eq_true, if_false]
  rw [postLate_none]
  · apply completeAccess_holdArray
    rw [matchAll_grant, storeMotion_grant]
    exact hg
  · rw [holdArray_lateNotice, matchAll_lateNotice, storeMotion_lateNotice]
    exact hs.2.1

theorem aside_grant {s u : State} (h : { u with watches := s.watches, ports := s.ports } = s) : u.grant = s.grant := by
  have := congrArg State.grant h
  exact this

theorem aside_lateNotice {s u : State} (h : { u with watches := s.watches, ports := s.ports } = s) :
    u.lateNotice = s.lateNotice := by
  have := congrArg State.lateNotice h
  exact this

theorem blockAll_grant (s : State) (writer : Actor) (addrs : List Nat) (address size : Nat) :
    (s.blockAll writer addrs address size).grant = s.grant :=
  aside_grant (blockAll_spec s writer addrs address size).1

theorem blockAll_lateNotice (s : State) (writer : Actor) (addrs : List Nat) (address size : Nat) :
    (s.blockAll writer addrs address size).lateNotice = s.lateNotice :=
  aside_lateNotice (blockAll_spec s writer addrs address size).1

/-- A granted segment whose bytes exist, up to its completion: performed where no hold refuses it (R125). -/
theorem execSegmentGrant_performed {s : State} {k : ChannelId} (post : RunEndPost) (hs : s.settled)
    (hg : s.grant = none) (hc : s.segmentChoice = some k) (h1 : inArray (s.channel k).segmentSource = true)
    (h2 : inArray (s.channel k).segmentDestination = true)
    (hr : s.runHeld (.channel k) (s.channel k).segmentDestination = false)
    (hw : s.watchHeld (.channel k) (s.channel k).segmentDestination = false) :
    execSegmentGrant (.whole post) s =
      .next (((({ s with
        pointer := 0
        enginePointer := k + 1
        array := s.array.writeAll (s.channel k).segmentDestination (s.array.readAll (s.channel k).segmentSource)
          } : State).matchAll ⟨.channel k, (s.channel k).segmentSource, firstAddress (s.channel k).segmentSource,
            (s.channel k).segmentSize, false⟩).matchAll
          ⟨.channel k, (s.channel k).segmentDestination, firstAddress (s.channel k).segmentDestination,
            (s.channel k).segmentSize, true⟩).segmentCompletes k (some (s.channel k).segmentSize) post) := by
  rw [execSegmentGrant_chosen post (clearWay_settled hs.1 hs.2.2) hc]
  have hb : beginSegment k { s with pointer := 0 } =
      .next (State.segmentAt { s with pointer := 0, enginePointer := k + 1 } k) := by
    have e1 : State.channel { s with pointer := 0 } k = s.channel k := rfl
    unfold beginSegment
    simp only [e1, h1, h2, Bool.and_self, if_true]
  rw [hb]
  refine congrArg Host.Outcome.next ?_
  have hr' : State.runHeld { s with pointer := 0, enginePointer := k + 1 } (.channel k)
      (s.channel k).segmentDestination = false := hr
  have hw' : State.watchHeld { s with pointer := 0, enginePointer := k + 1 } (.channel k)
      (s.channel k).segmentDestination = false := hw
  have e2 : State.channel { s with pointer := 0, enginePointer := k + 1 } k = s.channel k := rfl
  unfold State.segmentAt
  simp only [e2, hr', hw', Bool.false_eq_true, if_false]
  refine postLate_completeAccess_segment _ k _ post ?_ ?_
  · rw [matchAll_lateNotice, matchAll_lateNotice]
    exact hs.2.1
  · rw [matchAll_grant, matchAll_grant]
    exact hg

end Sys2Proof.Machine
end

