-- ==== Sys2Proof/Laws/Requests.lean ====
section
/-! SUPPORT. From the effect of a request to the state after its frame: what the state holds while the request is
applied, and how its effect and its completion meet. -/

namespace Sys2Proof.Machine

/-- A frame of a code's one length matches it. -/
theorem frameFits_of_length {code size : Byte} {bits n : Nat} (h : bits = 8 * n)
    (he : expectedLength code size = some n) : frameFits code size bits = true := by
  unfold frameFits
  rw [he]
  simp [h]

@[simp] theorem taken_anchor (s : State) (f : Frame) (a : AnchorId) : (s.taken f).anchor a = s.anchor a := rfl

@[simp] theorem taken_watch (s : State) (f : Frame) (w : WatchId) : (s.taken f).watch w = s.watch w := rfl

@[simp] theorem taken_channel (s : State) (f : Frame) (k : ChannelId) : (s.taken f).channel k = s.channel k := rfl

@[simp] theorem taken_array (s : State) (f : Frame) : (s.taken f).array = s.array := rfl

@[simp] theorem taken_grant (s : State) (f : Frame) : (s.taken f).grant = s.grant := rfl

/-- The requesting port while its request is applied: only its frame side differs. -/
theorem taken_port (s : State) (f : Frame) :
    (s.taken f).port f.port =
      { s.port f.port with
        slot := ⟨f.tag, .pending, []⟩
        frame := none
        shifted := (s.port f.port).frame.map (fun o => ⟨o.header, f.bits⟩) } := by
  simp [State.taken, State.frameOver, State.showPending]

theorem taken_port_other (s : State) (f : Frame) {p : PortId} (h : f.port ≠ p) :
    (s.taken f).port p = s.port p := by
  simp [State.taken, State.frameOver, State.showPending, port_modPort, h]

/-- The state after a request frame, from what applying its request gives. -/
theorem requestFrame_answers {s : State} {f : Frame} {code : Byte} {kind : FrameKind} {r : Request} {n : Nat}
    {x : Applied} (h : s.serves f.port) (hb : f.bits = 8 * n) (he : expectedLength code 0 = some n)
    (hn : kind ≠ .nop) (hu : kind ≠ .unknown) (hx : applyRequest f.port r (s.taken f) = x) :
    requestFrame f code kind r s = .next (x.state.complete f.port x.code x.data) := by
  rw [requestFrame_serves h (frameFits_of_length hb he) hn hu r]
  subst hx
  rfl

/-- A request without effect: refused, or a query. -/
theorem requestFrame_no_effect {s : State} {f : Frame} {code : Byte} {kind : FrameKind} {r : Request} {n : Nat}
    {c : ResultCode} {d : List Byte} (h : s.serves f.port) (hb : f.bits = 8 * n)
    (he : expectedLength code 0 = some n) (hn : kind ≠ .nop) (hu : kind ≠ .unknown)
    (hx : applyRequest f.port r (s.taken f) = ⟨s.taken f, c, d⟩) :
    requestFrame f code kind r s = .next (s.answered f c d) := by
  rw [requestFrame_answers h hb he hn hu hx, complete_taken]

theorem setPort_eq_modPort (s : State) (p : PortId) (q : Port) : s.setPort p q = s.modPort p (fun _ => q) := rfl

theorem taken_eq_modPort (s : State) (f : Frame) :
    s.taken f = s.modPort f.port (fun q =>
      { q with
        slot := ⟨f.tag, .pending, []⟩
        frame := none
        shifted := q.frame.map (fun o => ⟨o.header, f.bits⟩) }) := by
  simp [State.taken, State.frameOver, State.showPending]

/-- An effect on the requesting port alone, completed. -/
theorem complete_modPort_taken (s : State) (f : Frame) (g g' : Port → Port) (c : ResultCode) (d : List Byte)
    (ht : (g ((s.taken f).port f.port)).slot.tag = f.tag)
    (hg : { g ((s.taken f).port f.port) with slot := ⟨f.tag, c, d⟩, inFlight := none } =
      { g' (s.port f.port) with
        slot := ⟨f.tag, c, d⟩
        inFlight := none
        frame := none
        shifted := (g' (s.port f.port)).frame.map (fun o => ⟨o.header, f.bits⟩) }) :
    ((s.taken f).modPort f.port g).complete f.port c d = (s.modPort f.port g').answered f c d := by
  rw [taken_port] at ht hg
  simp only [State.complete, State.answered, State.frameOver, modPort_modPort, taken_eq_modPort]
  apply modPort_congr
  rw [ht]
  exact hg

/-- An effect on one watch, on one channel, or on one anchor alone, completed. -/
theorem complete_setWatch_taken (s : State) (f : Frame) (w : WatchId) (e : Watch) (c : ResultCode) (d : List Byte) :
    ((s.taken f).setWatch w e).complete f.port c d = (s.setWatch w e).answered f c d := by
  rw [← complete_taken]
  rfl

theorem complete_setChannel_taken (s : State) (f : Frame) (k : ChannelId) (e : Channel) (c : ResultCode)
    (d : List Byte) : ((s.taken f).setChannel k e).complete f.port c d = (s.setChannel k e).answered f c d := by
  rw [← complete_taken]
  rfl

theorem complete_setAnchor_taken (s : State) (f : Frame) (a : AnchorId) (e : Anchor) (c : ResultCode)
    (d : List Byte) : ((s.taken f).setAnchor a e).complete f.port c d = (s.setAnchor a e).answered f c d := by
  rw [← complete_taken]
  rfl

/-- Two states that differ in their ports alone are compared port by port. -/
theorem eq_of_ports {s t : State} (h : { s with ports := t.ports } = t) (hp : ∀ p, s.port p = t.port p) : s = t := by
  have := ports_ext hp
  cases s
  cases t
  simp_all

theorem answered_port (s : State) (f : Frame) (c : ResultCode) (d : List Byte) :
    (s.answered f c d).port f.port =
      { s.port f.port with
        slot := ⟨f.tag, c, d⟩
        inFlight := none
        frame := none
        shifted := (s.port f.port).frame.map (fun o => ⟨o.header, f.bits⟩) } := by
  simp [State.answered, State.frameOver]

theorem answered_port_other (s : State) (f : Frame) (c : ResultCode) (d : List Byte) {p : PortId}
    (h : f.port ≠ p) : (s.answered f c d).port p = s.port p := by
  simp [State.answered, State.frameOver, port_modPort, h]

/-- An effect on every port, completed: each port sees its own change, the requesting port on its frame side too. -/
theorem complete_mapPorts_taken (s : State) (f : Frame) (g g' : PortId → Port → Port) (c : ResultCode)
    (d : List Byte) (ho : ∀ p, f.port ≠ p → g p (s.port p) = g' p (s.port p))
    (ht : (g f.port ((s.taken f).port f.port)).slot.tag = f.tag)
    (hg : { g f.port ((s.taken f).port f.port) with slot := ⟨f.tag, c, d⟩, inFlight := none } =
      { g' f.port (s.port f.port) with
        slot := ⟨f.tag, c, d⟩
        inFlight := none
        frame := none
        shifted := (g' f.port (s.port f.port)).frame.map (fun o => ⟨o.header, f.bits⟩) }) :
    ((s.taken f).mapPorts g).complete f.port c d = (s.mapPorts g').answered f c d := by
  refine eq_of_ports rfl ?_
  intro p
  by_cases h : f.port = p
  · subst h
    rw [answered_port, port_mapPorts, State.complete, port_modPort_same, port_mapPorts, ← hg, ht]
  · rw [answered_port_other _ _ _ _ h, port_mapPorts, State.complete, port_modPort_other _ _ h, port_mapPorts,
      taken_port_other s f h]
    exact ho p h

end Sys2Proof.Machine
end

