-- ==== Sys2Proof/Tests/Slice0.lean ====
section
/-! SUPPORT. Tests: what WellFormed refuses, frames written out from the tables, one step of each kind on small states,
and for every statement with hypotheses concrete states and operands that meet them. -/

namespace Sys2Proof.Tests

open Sys2Proof Sys2Proof.Machine Sys2Proof.Claims

set_option maxRecDepth 10000

/-! ### Small states -/

/-- The part filled and READY, with no port attached. -/
def filled : State := { State.reset with fill := .filled, filling := false, ticking := true }

/-- A port with a frame open that started while READY was set. -/
def opened (m : PortMode) : Port := { Port.default with mode := m, frame := some ⟨[], true, false⟩ }

/-- P0 ATTACHED with a frame open. -/
def base : State := filled.setPort 0 (opened .attached)

/-- P0 ATTACHED with a frame open and its port changed by a function. -/
def withPort (g : Port → Port) : State := base.modPort 0 g

/-- A frame of P0 with a number of bytes. -/
def frame (n : Nat) : Frame := ⟨0, 8 * n, 0x2A⟩

/-- A record of priority `n` from watch 0, with kind set ALTER. -/
def record (n : Nat) : Record := ⟨0, 1, ⟨.watch 0, 1, n, none, none, none, none, none⟩⟩

/-- P0 with this queue. -/
def withQueue (q : List Record) : State := withPort (fun p => { p with queue := q })

/-- An anchor of `length` bytes from 100 on. -/
def anchorOf (owner : Owner) (length : Nat) (ring : Bool) (access : Access) : Anchor :=
  ⟨owner, some ⟨100, length⟩, ring, access⟩

/-- A holding watch of P1 over 8 to 11 that permits no one, with P1 subscribed. -/
def holder : Watch :=
  { Watch.default with
    owner := .owned 1
    subscribers := 2
    config := { WatchConfig.default with enabled := true, start := 8, stop := 11, hold := true, kinds := 1 } }

/-- A channel of P0 that copies `length` bytes from 0 on to 64 on. -/
def copier (phase : Phase) (length : Nat) : Channel :=
  { Channel.default with
    owner := .owned 0
    config := { ChannelConfig.default with source := 0, destination := 64, length := length, report := 2 }
    runsLeft := .count 1
    phase := phase }

/-- P0 with a memory request that waits for its grant. -/
def waitingFor (r : MemoryRequest) : State := withPort (fun p => { p with inFlight := some (.waiting r) })

/-- What a step from a command leaves, where it leaves a next state. -/
def after (c : Instr) (s : State) : State :=
  match exec c s with
  | .next t => t
  | .fault _ => s
  | .refused _ => s

/-! ### Well-formed command terms -/

theorem test_wellFormed_accepts : (Instr.nop 0 1).wellFormed = true ∧ (Instr.attach (frame 1)).wellFormed = true ∧
    (Instr.unknownCode (frame 2) 0x99).wellFormed = true ∧
    (Instr.write (frame 9) ⟨0, 0, 0, 0⟩ 2 [1, 2]).wellFormed = true ∧
    (Instr.write (frame 3) ⟨0, 0, 0, 0⟩ 2 []).wellFormed = true := by decide

theorem test_wellFormed_refuses_empty_nop : (Instr.nop 0 0).wellFormed = false := by decide

theorem test_wellFormed_refuses_frame_without_code : (Instr.attach ⟨0, 7, 0⟩).wellFormed = false := by decide

theorem test_wellFormed_refuses_known_code_as_unknown : (Instr.unknownCode (frame 2) 0x01).wellFormed = false := by
  decide

theorem test_wellFormed_refuses_write_with_other_data :
    (Instr.write (frame 9) ⟨0, 0, 0, 0⟩ 2 [1]).wellFormed = false := by decide

/-! ### Frames written out from Table 9-2 -/

theorem test_decode_port_frames :
    decodeFrame 1 16 [0x01, 5] = .attach ⟨1, 16, 5⟩ ∧ decodeFrame 1 16 [0x02, 5] = .detach ⟨1, 16, 5⟩ ∧
    decodeFrame 1 16 [0x03, 5] = .doze ⟨1, 16, 5⟩ ∧ decodeFrame 1 32 [0x04, 5, 3, 7] = .setLevels ⟨1, 32, 5⟩ 3 7 ∧
    decodeFrame 1 24 [0x05, 5, 14] = .clearFlags ⟨1, 24, 5⟩ 14 ∧
    decodeFrame 1 24 [0x06, 5, 1] = .takeNotice ⟨1, 24, 5⟩ 1 ∧
    decodeFrame 1 16 [0x07, 5] = .finishService ⟨1, 16, 5⟩ := by decide

theorem test_decode_memory_frames :
    decodeFrame 0 56 [0x10, 1, 1, 7, 0x34, 0x12, 16] = .read ⟨0, 56, 1⟩ ⟨1, 7, 0x34, 0x12⟩ 16 ∧
    decodeFrame 0 88 [0x13, 1, 0, 8, 0, 0, 2, 0xFF, 0xFE, 0, 1] =
      .fetchAdd ⟨0, 88, 1⟩ ⟨0, 8, 0, 0⟩ 2 0x0100FEFF := by decide

theorem test_decode_table_frames :
    decodeFrame 2 48 [0x21, 1, 3, 31, 0x10, 0x02] = .bindCursor ⟨2, 48, 1⟩ 3 31 528 ∧
    decodeFrame 2 24 [0x22, 1, 3] = .queryCursor ⟨2, 24, 1⟩ 3 ∧
    decodeFrame 2 160 [0x30, 1, 15, 11, 0x00, 0x01, 0x03, 0x01, 7, 0x12, 4, 2, 1, 2, 3, 4, 0xE8, 3, 6, 4] =
      .setWatch ⟨2, 160, 1⟩ ⟨15, 11, 256, 259, 7, 0x12, 4, 2, 0x04030201, 1000, 6, 4⟩ ∧
    decodeFrame 2 24 [0x31, 1, 9] = .subscribe ⟨2, 24, 1⟩ 9 ∧
    decodeFrame 2 24 [0x32, 1, 9] = .unsubscribe ⟨2, 24, 1⟩ 9 ∧
    decodeFrame 2 24 [0x41, 1, 2] = .armChannel ⟨2, 24, 1⟩ 2 ∧
    decodeFrame 2 24 [0x42, 1, 2] = .startChannel ⟨2, 24, 1⟩ 2 ∧
    decodeFrame 2 24 [0x43, 1, 2] = .abortChannel ⟨2, 24, 1⟩ 2 ∧
    decodeFrame 2 32 [0x51, 1, 1, 9] = .adopt ⟨2, 32, 1⟩ 1 9 ∧
    decodeFrame 2 32 [0x52, 1, 0, 9] = .release ⟨2, 32, 1⟩ 0 9 ∧
    decodeFrame 2 32 [0x53, 1, 2, 3] = .queryEntry ⟨2, 32, 1⟩ 2 3 := by decide

theorem test_decode_short_frames : decodeFrame 3 0 [] = .emptyFrame 3 ∧ decodeFrame 3 5 [] = .nop 3 5 ∧
    decodeTableWord 8 0 = none := by decide

/-- The bits 0000 0010 0000 0101 of SDI, first to last, are the bytes 0x02 and 0x05; three bits more make no byte. -/
theorem test_bits_most_significant_first :
    bytesOfBits [false, false, false, false, false, false, true, false, false, false, false, false, false, true, false,
      true] = [0x02, 0x05] ∧
    decodeBits 1 [false, false, false, false, false, false, true, false, false, false, false, false, false, true, false,
      true] = .detach ⟨1, 16, 5⟩ ∧
    decodeBits 1 [true, false, false, false, false, false, true, false, true, true, true] = .unknownCode ⟨1, 11, 0⟩ 0x82 ∧
    decodeBits 1 [true, false, true] = .nop 1 3 := by decide

/-- SDO carries the header bits while the frame is open, filler after them, and nothing between frames. -/
theorem test_sdo_follows_chip_select :
    filled.sdo 0 0 = none ∧ (after (.frameStart 0) filled).sdo 0 0 = some true ∧
    (after (.frameStart 0) filled).sdo 0 1 = some false ∧ (after (.frameStart 0) filled).sdo 0 48 = some false ∧
    (after (.nop 0 8) (after (.frameStart 0) filled)).sdo 0 0 = none ∧
    (after .supplyLoss (after (.frameStart 0) filled)).sdo 0 0 = none := by decide

/-! ### Steps and frames: states that meet the premises -/

theorem test_idle_queue : State.reset.pending = [] ∧ filled.pending = [] := by decide

theorem test_commands_give_next_states : exec .tick filled = .next (after .tick filled) ∧
    exec (.attach (frame 2)) base = .next (after (.attach (frame 2)) base) := ⟨rfl, rfl⟩

theorem test_request_frames_fit :
    requestBytes (.setLevels (frame 4) 1 1) = some (frame 4, 0x04, [1, 1]) ∧
    (Instr.setLevels (frame 4) 1 1).wellFormed = true ∧
    frameFits 0x04 (byteAt (0x04 :: (frame 4).tag :: [1, 1]) 6) (frame 4).bits = true ∧
    requestBytes (.write (frame 8) ⟨0, 0, 0, 0⟩ 1 [9]) = some (frame 8, 0x11, [0, 0, 0, 0, 1, 9]) ∧
    (Instr.write (frame 8) ⟨0, 0, 0, 0⟩ 1 [9]).wellFormed = true ∧
    frameFits 0x11 (byteAt (0x11 :: (frame 8).tag :: [0, 0, 0, 0, 1, 9]) 6) (frame 8).bits = true := by decide

theorem test_longest_header_premises :
    ((withPort (fun p =>
      { p with queue := List.replicate 24 (record 1), slot := ⟨1, .done, List.replicate 20 7⟩ })).port 0).queue.length ≤
        24 ∧
    ((withPort (fun p =>
      { p with queue := List.replicate 24 (record 1), slot := ⟨1, .done, List.replicate 20 7⟩ })).port
        0).slot.data.length ≤ 20 := by decide

theorem test_frame_start_premises : filled.supply = true ∧ filled.settled ∧ (filled.port 0).mode ≠ .dozing ∧
    (filled.setPort 0 { Port.default with mode := .dozing }).settled ∧
    ((filled.setPort 0 { Port.default with mode := .dozing }).port 0).mode = .dozing := by decide

theorem test_frame_start_wakes_port :
    ((after (.frameStart 0) (filled.setPort 0 { Port.default with mode := .dozing, queue := [record 1] })).port
      0).mode = .attached ∧
    ((after (.frameStart 0) (filled.setPort 0 { Port.default with mode := .dozing, queue := [record 1] })).port
      0).attention = true ∧
    ((after (.frameStart 0) (filled.setPort 0 { Port.default with mode := .dozing, queue := [record 1] })).port
      0).frame = some ⟨[0xC0, 1, 2, 0, 0, 0], true, false⟩ := by decide

theorem test_open_frame_premises : base.frameOpen 0 ∧ (base.setPort 0 (opened .detached)).frameOpen 0 := by decide

theorem test_length_fault_premises :
    frameFits 0x04 (byteAt (0x04 :: (frame 3).tag :: [1, 1]) 6) (frame 3).bits = false ∧
    frameFits 0x04 (byteAt (0x04 :: (frame 4).tag :: [1, 1]) 6) 33 = false ∧
    ((after (.setLevels (frame 3) 1 1) base).port 0).frameFault = true ∧
    ((after (.unknownCode (frame 1) 0x99) base).port 0).frameFault = true ∧
    ((after (.nop 0 9) base).port 0).frameFault = true := by decide

theorem test_busy_premises :
    (withPort (fun p => { p with inFlight := some .granted })).frameOpen 0 ∧
    ((withPort (fun p => { p with inFlight := some .granted })).port 0).inFlight.isSome = true ∧
    ((after (.setLevels (frame 4) 1 1) (withPort (fun p => { p with inFlight := some .granted }))).port
      0).busyRefused = true ∧
    ((after (.unknownCode (frame 2) 0x99) (withPort (fun p => { p with inFlight := some .granted }))).port
      0).busyRefused = true := by decide

theorem test_unready_frame_premises :
    (filled.setPort 0 { Port.default with frame := some ⟨[], false, false⟩ }).settled ∧
    (filled.setPort 0 { Port.default with frame := some ⟨[], true, true⟩ }).settled ∧
    ((filled.setPort 0 { Port.default with frame := some ⟨[], false, false⟩ }).port 0).mode ≠ .dozing ∧
    after (.attach (frame 2)) (filled.setPort 0 { Port.default with frame := some ⟨[], true, true⟩ }) =
      (filled.setPort 0 { Port.default with shifted := some ⟨[], 16⟩ }) := by decide

theorem test_answered_premises : (base.port 0).inFlight = none ∧ (frame 2).bits % 8 = 0 ∧ 16 ≤ (frame 2).bits ∧
    ((base.setPort 0 (opened .detached)).port 0).mode = .detached ∧
    ((after (.unknownCode (frame 2) 0x99) base).port 0).slot = ⟨0x2A, .badRequest, []⟩ ∧
    ((after (.detach (frame 2)) (base.setPort 0 (opened .detached))).port 0).slot = ⟨0x2A, .notAttached, []⟩ := by
  decide

theorem test_lone_frame_end_premises : filled.supply = true ∧ filled.settled ∧ (filled.port 0).frame = none ∧
    ((after (.attach (frame 2)) filled).port 0).mode = .attached := by decide

/-! ### Ports -/

theorem test_attach_premises : (base.setPort 0 (opened .detached)).frameOpen 0 ∧
    (base.setPort 0 (opened .detached)).grant = none ∧
    ((base.setPort 0 (opened .detached)).port 0).inFlight = none ∧ (frame 2).bits = 8 * 2 := by decide

theorem test_serves_premises : base.serves 0 ∧ (withQueue [record 1]).serves 0 := by decide

/-- A report set that named P0 while it was DETACHED no longer does after its ATTACH. -/
theorem test_attach_leaves_sets :
    ((after (.attach (frame 2)) ((base.setPort 0 (opened .detached)).setChannel 3
      { copier .idle 1 with
        owner := .owned 1
        config := { (copier .idle 1).config with report := 3 } })).channel 3).config.report = 2 := by decide

theorem test_detach_orphans_and_tells :
    ((after (.detach (frame 2)) ((base.setAnchor 3 ⟨.owned 0, none, false, .shared⟩).setPort 2
      { Port.default with mode := .attached })).anchor 3).owner = .orphaned ∧
    (((after (.detach (frame 2)) ((base.setAnchor 3 ⟨.owned 0, none, false, .shared⟩).setPort 2
      { Port.default with mode := .attached })).port 2).queue.map (fun r => r.notice)) = [presence 0 4] := by decide

theorem test_doze_premises :
    (∃ r ∈ ((withQueue [record 1]).port 0).queue, ((withQueue [record 1]).port 0).wake ≤ r.notice.priority) ∧
    (∀ r ∈ (base.port 0).queue, r.notice.priority < (base.port 0).wake) ∧
    ((after (.doze (frame 2)) (withQueue [record 1])).port 0).slot.code = .dozeDeclined ∧
    ((after (.doze (frame 2)) base).port 0).mode = .dozing := by decide

theorem test_set_levels_at_the_limits :
    ((after (.setLevels (frame 4) 8 7) base).port 0).threshold = 8 ∧
    ((after (.setLevels (frame 4) 8 7) base).port 0).wake = 7 ∧
    ((after (.setLevels (frame 4) 1 1) base).port 0).slot.code = .done ∧
    ((after (.setLevels (frame 4) 0 1) base).port 0).slot.code = .badParameter ∧
    ((after (.setLevels (frame 4) 9 1) base).port 0).slot.code = .badParameter ∧
    ((after (.setLevels (frame 4) 1 0) base).port 0).slot.code = .badParameter ∧
    ((after (.setLevels (frame 4) 1 8) base).port 0).slot.code = .badParameter := by decide

theorem test_clear_flags_premises :
    (∀ i : Fin 8, i.val = 0 ∨ 4 ≤ i.val → (14 : Byte).getLsbD i.val = false) ∧
    (∃ i : Fin 8, (i.val = 0 ∨ 4 ≤ i.val) ∧ (1 : Byte).getLsbD i.val = true) ∧
    (∃ i : Fin 8, (i.val = 0 ∨ 4 ≤ i.val) ∧ (16 : Byte).getLsbD i.val = true) := by decide

/-! ### Notices -/

theorem test_take_notice_premises :
    (withQueue [record 3, record 5, record 5]).serves 0 ∧
    ((withQueue [record 3, record 5, record 5]).port 0).queue = [record 3] ++ record 5 :: [record 5] ∧
    (∀ x ∈ [record 3], x.notice.priority < (record 5).notice.priority) ∧
    (∀ x ∈ [record 5], x.notice.priority ≤ (record 5).notice.priority) ∧
    ((withPort (fun p => { p with queue := [record 5], stack := [1, 1, 1] })).port 0).stack.length < 4 ∧
    ((after (.takeNotice (frame 3) 1) (withPort (fun p => { p with queue := [record 7], stack := [1, 1, 1] }))).port
      0).threshold = 8 := by decide

theorem test_take_notice_refusal_premises :
    ((after (.takeNotice (frame 3) 2) base).port 0).slot.code = .badParameter ∧
    ((after (.takeNotice (frame 3) 1) base).port 0).slot.code = .empty ∧
    (withPort (fun p => { p with queue := [record 5], stack := [1, 1, 1, 1] })).serves 0 ∧
    ((after (.takeNotice (frame 3) 1) (withPort (fun p =>
      { p with queue := [record 5], stack := [1, 1, 1, 1] }))).port 0).slot.code = .serviceFull := by decide

theorem test_finish_service_premises :
    (withPort (fun p => { p with stack := [2, 1], threshold := 8 })).serves 0 ∧
    ((after (.finishService (frame 2)) (withPort (fun p => { p with stack := [2, 1], threshold := 8 }))).port
      0).threshold = 2 ∧
    (base.port 0).stack = [] ∧
    ((after (.finishService (frame 2)) base).port 0).slot.code = .serviceEmpty := by decide

theorem test_post_premises :
    (opened .detached).mode = .detached ∧ (opened .attached).mode ≠ .detached ∧
    ({ opened .attached with queue := [record 3] } : Port).queue = [] ++ record 3 :: [] ∧
    ({ opened .attached with queue := List.replicate 23 (record 3) } : Port).queue.length < 24 ∧
    (({ opened .attached with queue := List.replicate 24 (record 3) } : Port).post
      (presence 1 1)).overrun = true ∧
    (({ opened .attached with queue := List.replicate 23 (record 3) } : Port).post
      (presence 1 1)).queue.length = 24 ∧
    (({ opened .attached with queue := List.replicate 24 (record 3) } : Port).post
      (record 3).notice).queue.length = 24 := by decide

theorem test_post_sequence_numbers :
    (({ opened .attached with nextSeq := 65535 } : Port).post (presence 1 1)).nextSeq = 0 ∧
    (({ opened .dozing with wake := 6 } : Port).post (presence 1 1)).mode = .attached ∧
    (({ opened .dozing with wake := 7 } : Port).post (presence 1 1)).mode = .dozing := by decide

/-! ### Anchors, cursors and targets -/

theorem test_set_anchor_premises :
    (base.setAnchor 31 ⟨.owned 0, none, false, .shared⟩).serves 0 ∧
    ((base.setAnchor 31 ⟨.owned 0, none, false, .shared⟩).anchor 31).owner = .owned 0 ∧
    ((after (.setAnchor (frame 9) ⟨31, 32767, 1, 1, 1⟩) (base.setAnchor 31 ⟨.owned 0, none, false, .shared⟩)).anchor
      31) = ⟨.owned 0, some ⟨32767, 1⟩, true, .ownerWrites⟩ ∧
    ((after (.setAnchor (frame 9) ⟨31, 65535, 0, 1, 1⟩) (base.setAnchor 31 (anchorOf (.owned 0) 8 false
      .shared))).anchor 31) = ⟨.owned 0, none, true, .ownerWrites⟩ := by decide

theorem test_set_anchor_refusal_premises :
    ((after (.setAnchor (frame 9) ⟨32, 0, 1, 0, 0⟩) base).port 0).slot.code = .badParameter ∧
    ((after (.setAnchor (frame 9) ⟨0, 0, 1, 0, 2⟩) base).port 0).slot.code = .badParameter ∧
    ((after (.setAnchor (frame 9) ⟨0, 0, 0, 0, 0⟩) base).port 0).slot.code = .badParameter ∧
    ((after (.setAnchor (frame 9) ⟨0, 0, 32769, 0, 0⟩) base).port 0).slot.code = .badParameter ∧
    ((after (.setAnchor (frame 9) ⟨0, 65535, 0, 0, 0⟩) base).port 0).slot.code = .notOwner ∧
    ((after (.setAnchor (frame 9) ⟨0, 32768, 1, 0, 0⟩) (base.setAnchor 0 (anchorOf (.owned 0) 8 false
      .shared))).port 0).slot.code = .outOfRange := by decide

theorem test_bind_cursor_premises :
    ((after (.bindCursor (frame 6) 4 0 0) base).port 0).slot.code = .badParameter ∧
    ((after (.bindCursor (frame 6) 0 32 0) base).port 0).slot.code = .badParameter ∧
    ((after (.bindCursor (frame 6) 3 31 0) base).port 0).slot.code = .nullAnchor ∧
    ((after (.bindCursor (frame 6) 3 31 8) (base.setAnchor 31 (anchorOf .orphaned 8 false .shared))).port 0).cursor
      3 = some ⟨31, 8⟩ ∧
    ((after (.bindCursor (frame 6) 3 31 9) (base.setAnchor 31 (anchorOf .orphaned 8 false .shared))).port
      0).slot.code = .outOfRange ∧
    ((after (.bindCursor (frame 6) 3 31 7) (base.setAnchor 31 (anchorOf .orphaned 8 true .shared))).port 0).cursor
      3 = some ⟨31, 7⟩ ∧
    ((after (.bindCursor (frame 6) 3 31 8) (base.setAnchor 31 (anchorOf .orphaned 8 true .shared))).port
      0).slot.code = .outOfRange := by decide

theorem test_query_cursor_premises :
    ((after (.queryCursor (frame 3) 4) base).port 0).slot.code = .badParameter ∧ (base.port 0).cursor 3 = none ∧
    ((withPort (fun p => p.setCursor 3 (some ⟨31, 32768⟩))).port 0).cursor 3 = some ⟨31, 32768⟩ ∧
    ((after (.queryCursor (frame 3) 3) (withPort (fun p => p.setCursor 3 (some ⟨31, 32768⟩)))).port 0).slot.data =
      [1, 31, 0, 0x80] := by decide

/-- P0's cursor 0 at an offset of anchor 0, which another port owns. -/
def bound (length : Nat) (ring : Bool) (access : Access) (offset : Nat) : State :=
  (withPort (fun p => p.setCursor 0 (some ⟨0, offset⟩))).setAnchor 0 (anchorOf (.owned 1) length ring access)

theorem test_resolution_places :
    (bound 8 false .shared 0).resolve 0 ⟨.absolute 32767, .read 1⟩ = .ok ⟨[32767], none⟩ ∧
    (bound 8 false .shared 0).resolve 0 ⟨.anchored 0 6, .write [1, 2]⟩ = .ok ⟨[106, 107], none⟩ ∧
    (bound 8 true .ownerWrites 0).resolve 0 ⟨.anchored 0 7, .read 8⟩ =
      .ok ⟨[107, 100, 101, 102, 103, 104, 105, 106], none⟩ ∧
    (bound 8 false .shared 4).resolve 0 ⟨.cursor 0 .at, .fetchAdd .four 1⟩ =
      .ok ⟨[104, 105, 106, 107], some (0, 4)⟩ ∧
    (bound 8 false .shared 4).resolve 0 ⟨.cursor 0 .postAdvance, .read 4⟩ =
      .ok ⟨[104, 105, 106, 107], some (0, 8)⟩ ∧
    (bound 8 false .shared 2).resolve 0 ⟨.cursor 0 .preRetreat, .read 2⟩ = .ok ⟨[100, 101], some (0, 0)⟩ ∧
    (bound 8 true .shared 7).resolve 0 ⟨.cursor 0 .postAdvance, .read 2⟩ = .ok ⟨[107, 100], some (0, 1)⟩ ∧
    (bound 8 true .shared 7).resolve 0 ⟨.cursor 0 .at, .read 2⟩ = .ok ⟨[107, 100], some (0, 7)⟩ ∧
    (bound 8 true .shared 1).resolve 0 ⟨.cursor 0 .preRetreat, .read 2⟩ = .ok ⟨[107, 100], some (0, 7)⟩ := by
  decide

theorem test_resolution_refusals :
    base.resolve 0 ⟨.cursor 0 .at, .read 1⟩ = .error .unbound ∧
    base.resolve 0 ⟨.anchored 0 0, .write [1]⟩ = .error .nullAnchor ∧
    (bound 8 false .ownerWrites 0).resolve 0 ⟨.anchored 0 0, .write [1]⟩ = .error .notOwner ∧
    (bound 8 false .shared 0).resolve 0 ⟨.anchored 0 8, .read 1⟩ = .error .outOfRange ∧
    (bound 8 true .shared 0).resolve 0 ⟨.anchored 0 8, .read 1⟩ = .error .outOfRange ∧
    (bound 1 true .shared 0).resolve 0 ⟨.anchored 0 0, .read 2⟩ = .error .outOfRange ∧
    (bound 8 false .ownerWrites 0).resolve 0 ⟨.cursor 0 .at, .write [1]⟩ = .error .notOwner ∧
    (bound 1 true .shared 0).resolve 0 ⟨.cursor 0 .at, .read 2⟩ = .error .outOfRange ∧
    (bound 8 false .shared 8).resolve 0 ⟨.cursor 0 .at, .read 1⟩ = .error .outOfRange ∧
    (bound 8 false .shared 0).resolve 0 ⟨.cursor 0 .preRetreat, .read 1⟩ = .error .outOfRange := by decide

/-! ### Ownership -/

theorem test_ownership_premises :
    base.serves 0 ∧ base.ownerOf (.anchor 31) = .free ∧
    (base.setWatch 15 { Watch.default with owner := .orphaned }).ownerOf (.watch 15) = .orphaned ∧
    (after (.claim (frame 4) 0 31) base).ownerOf (.anchor 31) = .owned 0 ∧
    (after (.adopt (frame 4) 1 15) (base.setWatch 15 { Watch.default with owner := .orphaned })).ownerOf
      (.watch 15) = .owned 0 := by decide

theorem test_names_no_entry :
    namesNone 3 0 ∧ namesNone 0 32 ∧ namesNone 1 16 ∧ namesNone 2 4 ∧ ¬ namesNone 0 31 ∧ ¬ namesNone 1 15 ∧
    ¬ namesNone 2 3 := by
  unfold namesNone
  decide

theorem test_ownership_refusal_premises :
    (base.setChannel 3 (copier .armed 1)).serves 0 ∧
    ((base.setChannel 3 (copier .armed 1)).channel 3).phase ≠ .idle ∧
    ((after (.claim (frame 4) 2 3) (base.setChannel 3 (copier .armed 1))).port 0).slot.code = .entryTaken ∧
    ((after (.adopt (frame 4) 2 3) (base.setChannel 3 (copier .armed 1))).port 0).slot.code = .notOrphaned ∧
    ((after (.release (frame 4) 2 3) (base.setChannel 3 (copier .armed 1))).port 0).slot.code = .channelBusy ∧
    ((after (.release (frame 4) 2 3) base).port 0).slot.code = .notOwner := by decide

theorem test_release_premises :
    ((base.setAnchor 31 (anchorOf (.owned 0) 8 false .shared)).anchor 31).owner = .owned 0 ∧
    ((base.setWatch 15 { Watch.default with owner := .owned 0, hits := 9 }).watch 15).owner = .owned 0 ∧
    ((base.setChannel 3 (copier .idle 1)).channel 3).phase = .idle ∧
    ((after (.release (frame 4) 2 3) (base.setChannel 3 (copier .idle 1))).channel 3) = Channel.default ∧
    ((after (.release (frame 4) 1 15) (base.setWatch 15 { Watch.default with owner := .owned 0, hits := 9 })).watch
      15) = Watch.default := by decide

/-! ### Watches -/

/-- P0 owns watch 15. -/
def ownsWatch : State := base.setWatch 15 { Watch.default with owner := .owned 0, subscribers := 5, hits := 9 }

theorem test_set_watch_premises :
    ownsWatch.serves 0 ∧ (ownsWatch.watch 15).owner = .owned 0 ∧ (15 : Byte) = BitVec.ofNat 8 (15 : WatchId).val ∧
    (4 : Byte) = BitVec.ofNat 8 Width.four.bytes ∧ (3 : Byte) = BitVec.ofNat 8 Condition.below.code ∧
    (4 : Byte) = BitVec.ofNat 8 (triggerCode (some 3)) ∧ (32764 : Half).toNat + Width.four.bytes ≤ 32768 ∧
    (32764 : Half).toNat + Width.four.bytes ≤ (32767 : Half).toNat + 1 ∧
    (0xFFFFFFFF : Quad).toNat < 256 ^ Width.four.bytes ∧ 1 ≤ (1 : Half).toNat ∧
    (after (.setWatch (frame 20) ⟨15, 1, 32764, 32767, 12, 0, 4, 3, 0xFFFFFFFF, 1, 7, 4⟩) ownsWatch).watch 15 =
      { Watch.default with
        owner := .owned 0
        subscribers := 5
        lastOutcome := true
        quiet := .running
        countdown := 1
        config :=
          { WatchConfig.default with
            enabled := true
            start := 32764
            stop := 32767
            kinds := 12
            width := .four
            condition := .below
            reference := 0xFFFFFFFF
            quietLimit := 1
            priority := 7
            trigger := some 3 } } := by decide

/-- The outcome of a SET_WATCH of watch 15 with these fields changed from a good one. -/
def setWatchCode (b : WatchBytes) : ResultCode := ((after (.setWatch (frame 20) b) ownsWatch).port 0).slot.code

theorem test_set_watch_refusal_premises :
    setWatchCode ⟨16, 0, 0, 0, 0, 0, 1, 0, 0, 1, 1, 0⟩ = .badParameter ∧
    setWatchCode ⟨15, 0, 32768, 0, 0, 0, 1, 0, 0, 1, 1, 0⟩ = .badParameter ∧
    setWatchCode ⟨15, 0, 0, 32768, 0, 0, 1, 0, 0, 1, 1, 0⟩ = .badParameter ∧
    setWatchCode ⟨15, 0, 0, 0, 0, 0, 3, 0, 0, 1, 1, 0⟩ = .badParameter ∧
    setWatchCode ⟨15, 0, 32765, 0, 0, 0, 4, 0, 0, 1, 1, 0⟩ = .badParameter ∧
    setWatchCode ⟨15, 0, 8, 10, 4, 0, 4, 0, 0, 1, 1, 0⟩ = .badParameter ∧
    setWatchCode ⟨15, 0, 8, 10, 0, 0, 4, 0, 0, 1, 1, 0⟩ = .done ∧
    setWatchCode ⟨15, 0, 0, 0, 0, 0, 1, 4, 0, 1, 1, 0⟩ = .badParameter ∧
    setWatchCode ⟨15, 0, 0, 0, 0, 0, 1, 0, 256, 1, 1, 0⟩ = .badParameter ∧
    setWatchCode ⟨15, 0, 0, 0, 0, 0, 1, 0, 255, 0, 1, 0⟩ = .badParameter ∧
    setWatchCode ⟨15, 0, 0, 0, 0, 0, 1, 0, 255, 1, 0, 0⟩ = .badParameter ∧
    setWatchCode ⟨15, 0, 0, 0, 0, 0, 1, 0, 255, 1, 8, 0⟩ = .badParameter ∧
    setWatchCode ⟨15, 0, 0, 0, 0, 0, 1, 0, 255, 1, 7, 5⟩ = .badParameter ∧
    setWatchCode ⟨14, 0, 0, 0, 0, 0, 1, 0, 255, 1, 7, 4⟩ = .notOwner := by decide

theorem test_subscription_premises :
    ((after (.subscribe (frame 3) 16) ownsWatch).port 0).slot.code = .badParameter ∧
    (ownsWatch.watch 0).owner = .free ∧ (ownsWatch.watch 15).owner ≠ .free ∧
    ((after (.subscribe (frame 3) 0) ownsWatch).port 0).slot.code = .badParameter ∧
    ((after (.unsubscribe (frame 3) 15) ownsWatch).watch 15).subscribers = 4 ∧
    ((after (.subscribe (frame 3) 15) ownsWatch).watch 15).subscribers = 5 := by decide

/-! ### Channels -/

/-- P0 owns channel 3 in this state. -/
def ownsChannel (phase : Phase) (length : Nat) : State := base.setChannel 3 (copier phase length)

theorem test_set_channel_premises :
    (ownsChannel .idle 0).serves 0 ∧ ((ownsChannel .idle 0).channel 3).owner = .owned 0 ∧
    ((ownsChannel .idle 0).channel 3).phase = .idle ∧
    (after (.setChannel (frame 13) ⟨3, 28672, 24576, 4096, 3, 0, 7, 15⟩) (ownsChannel .idle 0)).channel 3 =
      ⟨.owned 0, ⟨28672, 24576, 4096, true, 0, .lastRun, 7, 15⟩, .count 0, .idle, 0, 0⟩ := by decide

/-- The outcome of a SET_CHANNEL with these bytes, from P0 owning channel 3 IDLE. -/
def setChannelCode (b : ChannelBytes) : ResultCode :=
  ((after (.setChannel (frame 13) b) (ownsChannel .idle 0)).port 0).slot.code

theorem test_set_channel_refusal_premises :
    setChannelCode ⟨4, 0, 64, 16, 0, 1, 4, 0⟩ = .badParameter ∧
    setChannelCode ⟨3, 32768, 64, 1, 0, 1, 4, 0⟩ = .badParameter ∧
    setChannelCode ⟨3, 0, 32768, 1, 0, 1, 4, 0⟩ = .badParameter ∧
    setChannelCode ⟨3, 0, 64, 0, 0, 1, 4, 0⟩ = .badParameter ∧
    setChannelCode ⟨3, 0, 8192, 4097, 0, 1, 4, 0⟩ = .badParameter ∧
    setChannelCode ⟨3, 32767, 0, 2, 0, 1, 4, 0⟩ = .badParameter ∧
    setChannelCode ⟨3, 0, 32767, 2, 0, 1, 4, 0⟩ = .badParameter ∧
    setChannelCode ⟨3, 0, 15, 16, 0, 1, 4, 0⟩ = .badParameter ∧
    setChannelCode ⟨3, 15, 0, 16, 0, 1, 4, 0⟩ = .badParameter ∧
    setChannelCode ⟨3, 0, 16, 16, 0, 1, 4, 0⟩ = .done ∧
    setChannelCode ⟨3, 0, 64, 16, 0, 1, 0, 0⟩ = .badParameter ∧
    setChannelCode ⟨3, 0, 64, 16, 0, 1, 8, 0⟩ = .badParameter ∧
    setChannelCode ⟨3, 0, 64, 16, 0, 1, 4, 16⟩ = .badParameter ∧
    setChannelCode ⟨2, 0, 64, 16, 0, 1, 4, 0⟩ = .notOwner ∧
    ((after (.setChannel (frame 13) ⟨3, 0, 64, 16, 0, 1, 4, 0⟩) (ownsChannel .armed 1)).port 0).slot.code =
      .channelBusy := by decide

theorem test_arm_channel_premises :
    ((after (.armChannel (frame 3) 4) (ownsChannel .idle 1)).port 0).slot.code = .badParameter ∧
    ((after (.armChannel (frame 3) 2) (ownsChannel .idle 1)).port 0).slot.code = .notOwner ∧
    ((after (.armChannel (frame 3) 3) (ownsChannel .armed 1)).port 0).slot.code = .channelBusy ∧
    ((after (.armChannel (frame 3) 3) (ownsChannel .idle 0)).port 0).slot.code = .badParameter ∧
    ((after (.armChannel (frame 3) 3) (ownsChannel .idle 1)).channel 3).phase = .armed ∧
    ((after (.armChannel (frame 3) 3) (ownsChannel .idle 1)).channel 3).runsLeft = .count 1 := by decide

theorem test_start_channel_premises :
    ((after (.startChannel (frame 3) 4) (ownsChannel .idle 1)).port 0).slot.code = .badParameter ∧
    ((after (.startChannel (frame 3) 2) (ownsChannel .idle 1)).port 0).slot.code = .notOwner ∧
    ((after (.startChannel (frame 3) 3) (ownsChannel .idle 1)).port 0).slot.code = .notArmed ∧
    ((after (.startChannel (frame 3) 3) (ownsChannel .armed 1)).channel 3).phase = .running ∧
    ((after (.startChannel (frame 3) 3) (ownsChannel .running 1)).channel 3).phase = .runningLatched ∧
    ((after (.startChannel (frame 3) 3) (ownsChannel .runningLatched 1)).channel 3).collapsed = 1 := by decide

theorem test_abort_channel_premises :
    ((after (.abortChannel (frame 3) 4) (ownsChannel .idle 1)).port 0).slot.code = .badParameter ∧
    ((after (.abortChannel (frame 3) 2) (ownsChannel .idle 1)).port 0).slot.code = .notOwner ∧
    ((after (.abortChannel (frame 3) 3) (ownsChannel .idle 1)).port 0).slot.code = .done ∧
    ((after (.abortChannel (frame 3) 3) (ownsChannel .armed 1)).channel 3).phase = .idle ∧
    ((after (.abortChannel (frame 3) 3) ((ownsChannel .runningLatched 1).setPort 1 (opened .attached))).port
      1).queue = [⟨0, 1, runNotice 3 4 4 0 1 (.count 1)⟩] := by decide

theorem test_run_end_premises :
    (copier .running 17).copied + 16 < (copier .running 17).config.length ∧
    (copier .running 16).config.length ≤ (copier .running 16).copied + 16 ∧
    spent (copier .running 16).runsLeft = .count 0 ∧
    spent ({ copier .running 16 with runsLeft := .count 2 } : Channel).runsLeft ≠ .count 0 ∧
    (copier .running 16).config.notify = .eachRun ∧
    (((ownsChannel .running 16).segmentCompletes 3 (some 16) .atOnce).channel 3).phase = .idle ∧
    ((((base.setChannel 3 { copier .runningLatched 16 with runsLeft := .unlimited })).segmentCompletes 3
      (some 16) .atOnce).channel 3).phase = .running ∧
    (((base.setChannel 3 { copier .running 16 with runsLeft := .count 2 }).segmentCompletes 3 none .atOnce).channel 3) =
      { copier .armed 16 with runsLeft := .count 1 } := by decide

/-! ### Memory requests and grants -/

theorem test_memory_request_premises :
    base.takes 0 ∧ target? ⟨0, 0xFF, 0x7F, 9⟩ = some (.absolute 32767) ∧
    target? ⟨1, 31, 0xFF, 0xFF⟩ = some (.anchored 31 65535) ∧ target? ⟨2, 3, 2, 9⟩ = some (.cursor 3 .preRetreat) ∧
    target? ⟨3, 0, 0, 0⟩ = none ∧ target? ⟨1, 32, 0, 0⟩ = none ∧ target? ⟨2, 4, 0, 0⟩ = none ∧
    target? ⟨2, 0, 3, 0⟩ = none ∧ (32752 : Nat) + (16 : Byte).toNat ≤ 32768 ∧
    ((after (.read (frame 7) ⟨0, 0xFF, 0x7F, 9⟩ 1) base).port 0).inFlight =
      some (.waiting ⟨.absolute 32767, .read 1⟩) ∧
    ((after (.write (frame 23) ⟨0, 0xF0, 0x7F, 9⟩ 16 (List.replicate 16 1)) base).port 0).inFlight =
      some (.waiting ⟨.absolute 32752, .write (List.replicate 16 1)⟩) ∧
    ((after (.exchange (frame 15) ⟨0, 0xFE, 0x7F, 9⟩ 2 0x10002 0xFFFFFFFF) base).port 0).inFlight =
      some (.waiting ⟨.absolute 32766, .exchange .two 2 65535⟩) ∧
    ((after (.fetchAdd (frame 11) ⟨0, 0xFC, 0x7F, 9⟩ 4 0x10002) base).port 0).inFlight =
      some (.waiting ⟨.absolute 32764, .fetchAdd .four 65538⟩) := by decide

theorem test_memory_request_refusal_premises :
    ((after (.read (frame 7) ⟨0, 0, 0, 0⟩ 0) base).port 0).slot.code = .badParameter ∧
    ((after (.read (frame 7) ⟨0, 0, 0, 0⟩ 17) base).port 0).slot.code = .badParameter ∧
    ((after (.write (frame 7) ⟨0, 0, 0, 0⟩ 17 []) base).port 0).slot.code = .badParameter ∧
    ((after (.fetchAdd (frame 11) ⟨0, 0, 0, 0⟩ 3 1) base).port 0).slot.code = .badParameter ∧
    ((after (.exchange (frame 15) ⟨3, 0, 0, 0⟩ 1 0 0) base).port 0).slot.code = .badParameter ∧
    ((after (.read (frame 7) ⟨0, 0xFF, 0x7F, 0⟩ 2) base).port 0).slot.code = .outOfRange ∧
    ((after (.write (frame 9) ⟨0, 0xFF, 0x7F, 0⟩ 2 [1, 2]) base).port 0).slot.code = .outOfRange ∧
    ((after (.fetchAdd (frame 11) ⟨0, 0xFD, 0x7F, 0⟩ 4 1) base).port 0).slot.code = .outOfRange ∧
    ((after (.exchange (frame 15) ⟨0, 0xFF, 0x7F, 0⟩ 2 0 0) base).port 0).slot.code = .outOfRange := by decide

theorem test_arbiter_premises :
    State.reset.ready = false ∧ State.reset.arbiterChoice = none ∧
    (waitingFor ⟨.absolute 8, .read 1⟩).ready = true ∧ (waitingFor ⟨.absolute 8, .read 1⟩).grant = none ∧
    (waitingFor ⟨.absolute 8, .read 1⟩).arbiterChoice = some 0 ∧
    ((waitingFor ⟨.absolute 8, .read 1⟩).setChannel 3 (copier .running 1)).claims 4 = true ∧
    ({ (waitingFor ⟨.absolute 8, .read 1⟩).setChannel 3 (copier .running 1) with pointer := 4 } : State).arbiterChoice =
      some 4 ∧
    ((ownsChannel .running 1).setChannel 1 (copier .running 1)).engineChoice = some 1 ∧
    ({ (ownsChannel .running 1).setChannel 1 (copier .running 1) with enginePointer := 2 } : State).engineChoice =
      some 3 := by decide

/-- A presentation of P0's write of the bytes from 8 on. -/
def write8 : Presentation := ⟨.port 0, [8, 9], 8, 2, true⟩

/-- A watch of P1's over 8 to 11 with ALTER and trigger K3. -/
def altered : Watch := { holder with config := { holder.config with hold := false, trigger := some 3 } }

theorem test_matching_premises :
    holder.config.enabled = true ∧ Watch.default.config.enabled = false ∧ touchesWatch altered.config [8, 9] ∧
    ¬ touchesWatch altered.config [12] ∧
    (((base.setWatch 4 altered).matchAll write8).watch 4).hits = 1 := by decide

theorem test_trigger_premises :
    (((ownsChannel .armed 1).setWatch 4 altered).matchAll write8).channel 3 =
      { copier .running 1 with copied := 0 } ∧
    (((ownsChannel .armed 1).setWatch 4 altered).matchAll ⟨.channel 3, [8, 9], 8, 2, true⟩).channel 3 =
      copier .armed 1 ∧
    kindSet write8 altered [] &&& 5 ≠ 0 ∧ altered.config.trigger = some 3 ∧ write8.actor ≠ .channel 3 := by decide

theorem test_own_trigger_premises :
    (∃ w : WatchId, indicates write8 (((ownsChannel .armed 1).setWatch 4 altered).watch w) [] ∧
      (((ownsChannel .armed 1).setWatch 4 altered).watch w).config.trigger = some 3) ∧
    (∀ w : WatchId, (((ownsChannel .armed 1).setWatch 4 altered).watch w).config.trigger = some 2 →
      write8.actor = .channel 2) := by decide

theorem test_granted_premises :
    Granted (waitingFor ⟨.absolute 8, .write [1, 2]⟩) 0 ⟨.absolute 8, .write [1, 2]⟩ ⟨[8, 9], none⟩ :=
  ⟨by decide, by decide, by decide, by decide, by decide⟩

theorem test_granted_write_is_free :
    (waitingFor ⟨.absolute 8, .write [1, 2]⟩).runHeld (.port 0) [8, 9] = false ∧
    (waitingFor ⟨.absolute 8, .write [1, 2]⟩).watchHeld (.port 0) [8, 9] = false ∧
    (waitingFor ⟨.absolute 8, .write [1, 2]⟩).arrayListed ∧ ([8, 9] : List Nat).Nodup ∧
    (after (.memoryGrant .whole) (waitingFor ⟨.absolute 8, .write [1, 2]⟩)).array = [(8, 1), (9, 2)] := by decide

theorem test_granted_other_operations :
    Granted (waitingFor ⟨.absolute 8, .read 2⟩) 0 ⟨.absolute 8, .read 2⟩ ⟨[8, 9], none⟩ ∧
    Granted (waitingFor ⟨.absolute 8, .exchange .two 0 5⟩) 0 ⟨.absolute 8, .exchange .two 0 5⟩ ⟨[8, 9], none⟩ ∧
    Granted (waitingFor ⟨.absolute 8, .fetchAdd .two 5⟩) 0 ⟨.absolute 8, .fetchAdd .two 5⟩ ⟨[8, 9], none⟩ :=
  ⟨⟨by decide, by decide, by decide, by decide, by decide⟩,
    ⟨by decide, by decide, by decide, by decide, by decide⟩,
    ⟨by decide, by decide, by decide, by decide, by decide⟩⟩

/-- P0's READ of two bytes through its cursor 3, bound to the ring A5, waits. -/
def waitingAtCursor : State :=
  ((waitingFor ⟨.cursor 3 .postAdvance, .read 2⟩).modPort 0 (fun p => p.setCursor 3 (some ⟨5, 6⟩))).setAnchor 5
    ⟨.owned 0, some ⟨100, 8⟩, true, .shared⟩

/-- The motion of a granted access is stored in its cursor (R36, R38). -/
theorem test_granted_cursor :
    Granted waitingAtCursor 0 ⟨.cursor 3 .postAdvance, .read 2⟩ ⟨[106, 107], some (3, 0)⟩ ∧
    waitingAtCursor.arrayListed ∧
    ((after (.memoryGrant .whole) waitingAtCursor).port 0).cursor 3 = some ⟨5, 0⟩ ∧
    ((after (.memoryGrant .whole) waitingAtCursor).port 0).cursor 2 = none :=
  ⟨⟨by decide, by decide, by decide, by decide, by decide⟩, by decide,
    by decide, by decide⟩

theorem test_exchange_and_fetch_add :
    ((after (.memoryGrant .whole) (waitingFor ⟨.absolute 8, .exchange .two 0 5⟩)).port 0).slot = ⟨0, .done, [0, 0]⟩ ∧
    ((after (.memoryGrant .whole) (waitingFor ⟨.absolute 8, .exchange .two 1 5⟩)).port 0).slot =
      ⟨0, .compareFailed, [0, 0]⟩ ∧
    (after (.memoryGrant .whole) { waitingFor ⟨.absolute 8, .fetchAdd .two 1⟩ with
      array := [(8, 255), (9, 255), (10, 7)] }).array = [(10, 7)] := by decide

theorem test_held_write_premises :
    Granted ((waitingFor ⟨.absolute 8, .write [1, 2]⟩).setWatch 4 holder) 0 ⟨.absolute 8, .write [1, 2]⟩
      ⟨[8, 9], none⟩ ∧
    ((waitingFor ⟨.absolute 8, .write [1, 2]⟩).setWatch 4 holder).runHeld (.port 0) [8, 9] = false ∧
    ((waitingFor ⟨.absolute 8, .write [1, 2]⟩).setWatch 4 holder).watchHeld (.port 0) [8, 9] = true :=
  ⟨⟨by decide, by decide, by decide, by decide, by decide⟩, by decide, by decide⟩

/-- The same write with channel 3 running from a held source. -/
def runHolding : State :=
  (waitingFor ⟨.absolute 8, .write [1, 2]⟩).setChannel 3
    { copier .running 9 with config := { (copier .running 9).config with sourceHold := true } }

theorem test_run_held_premises :
    Granted runHolding 0 ⟨.absolute 8, .write [1, 2]⟩ ⟨[8, 9], none⟩ ∧
    runHolding.runHeld (.port 0) [8, 9] = true ∧ runHolding.runHeld (.port 0) [9, 10] = false :=
  ⟨⟨by decide, by decide, by decide, by decide, by decide⟩, by decide, by decide⟩

theorem test_unresolved_premises :
    Unresolved (waitingFor ⟨.cursor 0 .at, .read 1⟩) 0 ⟨.cursor 0 .at, .read 1⟩ .unbound ∧
    Unresolved (waitingFor ⟨.anchored 0 0, .read 1⟩) 0 ⟨.anchored 0 0, .read 1⟩ .nullAnchor ∧
    Unresolved ((waitingFor ⟨.anchored 0 0, .read 1⟩).setAnchor 0 ⟨.owned 1, none, false, .shared⟩) 0
      ⟨.anchored 0 0, .read 1⟩ .nullAnchor :=
  ⟨⟨by decide, by decide, by decide, by decide⟩, ⟨by decide, by decide, by decide, by decide⟩,
    ⟨by decide, by decide, by decide, by decide⟩⟩

theorem test_two_command_grant_premises :
    (waitingFor ⟨.absolute 8, .read 1⟩).settled ∧ (waitingFor ⟨.absolute 8, .read 1⟩).grant = none ∧
    (ownsChannel .running 1).settled ∧ base.memoryChoice = none ∧ base.segmentChoice = none ∧
    after (.memoryGrant .ends) (after (.memoryGrant .begins) (waitingFor ⟨.absolute 8, .read 1⟩)) =
      after (.memoryGrant .whole) (waitingFor ⟨.absolute 8, .read 1⟩) ∧
    after (.segmentGrant (.ends .atOnce)) (after (.segmentGrant .begins) (ownsChannel .running 1)) =
      after (.segmentGrant (.whole .atOnce)) (ownsChannel .running 1) := by decide

theorem test_segment_premises : SegmentGranted (ownsChannel .running 17) 3 ∧
    (ownsChannel .running 17).runHeld (.channel 3) (List.range' 64 16) = false ∧
    (ownsChannel .running 17).watchHeld (.channel 3) (List.range' 64 16) = false ∧
    (ownsChannel .running 17).arrayListed :=
  ⟨⟨by decide, by decide, by decide, by decide, by decide⟩, by decide, by decide, by decide⟩

/-- Channel 3 running into the range of a holding watch. -/
def watchedSegment : State :=
  (ownsChannel .running 17).setWatch 4 { holder with config := { holder.config with start := 79, stop := 79 } }

/-- Channel 3 running into the held source of channel 2. -/
def heldSegment : State :=
  (ownsChannel .running 17).setChannel 2
    { copier .running 1 with
      copied := 1
      config := { (copier .running 1).config with source := 79, destination := 99, sourceHold := true } }

theorem test_held_segment_premises :
    SegmentGranted watchedSegment 3 ∧ watchedSegment.runHeld (.channel 3) (List.range' 64 16) = false ∧
    watchedSegment.watchHeld (.channel 3) (List.range' 64 16) = true ∧
    SegmentGranted heldSegment 3 ∧ heldSegment.runHeld (.channel 3) (List.range' 64 16) = true :=
  ⟨⟨by decide, by decide, by decide, by decide, by decide⟩, by decide, by decide,
    ⟨by decide, by decide, by decide, by decide, by decide⟩, by decide⟩

theorem test_segment_copies :
    (after (.segmentGrant (.whole .atOnce)) { ownsChannel .running 2 with array := [(0, 5), (1, 6)] }).array =
      [(0, 5), (1, 6), (64, 5), (65, 6)] := by decide

/-! ### Ticks, lapses and deferred requests -/

/-- P0's watch 15 counting down with subscriber P1 and trigger K3. -/
def counting (n : Nat) : Watch :=
  { Watch.default with
    owner := .owned 0
    subscribers := 2
    quiet := .running
    countdown := n
    config := { WatchConfig.default with enabled := true, kinds := 8, quietLimit := 9, trigger := some 3 } }

theorem test_tick_premises :
    State.reset.settled ∧ State.reset.ticking = false ∧ base.settled ∧ base.ticking = true ∧ base.grant = none ∧
    ({ base with grant := some (.access 1 .done []) } : State).settled ∧
    (after .tick (base.setWatch 15 (counting 1))).lapsesDue = [15] ∧
    (after .tick (base.setWatch 15 (counting 2))).lapsesDue = [] ∧
    ((after .tick (base.setWatch 15 (counting 2))).watch 15).countdown = 1 := by decide

theorem test_lapse_premises :
    ({ base.setWatch 15 (counting 0) with lapsesDue := [15] } : State).lapsesDue = 15 :: [] ∧
    (counting 0).config.trigger = some 3 ∧ Watch.default.config.trigger = none ∧
    (base.tickTriggered).getLsbD (3 : ChannelId).val = false ∧ (8 : BitVec 4).getLsbD (3 : ChannelId).val = true ∧
    ((after .lapse ({ (ownsChannel .armed 1).setWatch 15 (counting 0) with lapsesDue := [15] } : State)).channel
      3).phase = .running ∧
    ((after .lapse ({ (ownsChannel .armed 1).setWatch 15 (counting 0) with
      lapsesDue := [15], tickTriggered := 8 } : State)).channel 3).phase = .armed := by decide

/-- A grant of P1 holds the array. -/
def busy : State := { base with grant := some (.access 1 .done []) }

/-- A segment of channel 3 holds the array. -/
def moving : State := { ownsChannel .running 17 with grant := some (.segment 3 (some 16)) }

theorem test_deferral_premises :
    requestOf (.abortChannel (frame 3) 3) = some (frame 3, 0x43, .abortChannel 3) ∧ busy.takes 0 ∧ moving.takes 0 ∧
    frameFits 0x43 0 (frame 3).bits = true ∧
    ((after (.abortChannel (frame 3) 3) moving).port 0).inFlight = some (.afterSegment 3) ∧
    ((after (.abortChannel (frame 3) 2) moving).port 0).inFlight = some (.deferred (.abortChannel 2)) ∧
    ((after (.doze (frame 2)) busy).port 0).inFlight = some (.deferred .doze) := by decide

theorem test_deferred_attach_premises :
    (busy.setPort 0 (opened .detached)).frameOpen 0 ∧ ((busy.setPort 0 (opened .detached)).port 0).inFlight = none ∧
    requestOf (.attach (frame 2)) = some (frame 2, 0x01, .attach) ∧
    ((after (.attach (frame 2)) (busy.setPort 0 (opened .detached))).port 0).inFlight = some (.deferred .attach) ∧
    (after (.attach (frame 2)) (busy.setPort 0 (opened .detached))).deferredOrder = [.request 0] := by decide

/-- P0's DOZE waits for the completion of the grant, if there is one. -/
def dozeWaits (g : Option Grant) : State :=
  { withPort (fun p => { p with inFlight := some (.deferred .doze) }) with
    grant := g, deferredOrder := [.request 0] }

theorem test_deferred_request_premises :
    (dozeWaits none).lapsesDue = [] ∧ (dozeWaits busy.grant).lapsesDue = [] ∧
    ((dozeWaits none).port 0).inFlight = some (.deferred .doze) ∧ (dozeWaits none).deferredOrder = .request 0 :: [] ∧
    ((after (.deferredRequestApply 0) (dozeWaits none)).port 0).mode = .dozing ∧
    (dozeWaits busy.grant).grant = some (.access 1 .done []) ∧ (1 : PortId) ≠ 0 ∧
    ((after (.deferredRequestApply 0) (dozeWaits busy.grant)).port 0).mode = .dozing ∧
    (after (.deferredRequestApply 0) (dozeWaits busy.grant)).grant = none ∧
    base.settled ∧ (base.port 0).inFlight = none := by decide

/-- P0's DOZE waits behind a tick. -/
theorem test_deferred_behind_tick_premises :
    let s : State := { dozeWaits none with deferredOrder := [.tick, .request 0] }
    s.lapsesDue = [] ∧ (s.port 0).inFlight = some (.deferred .doze) ∧
    s.deferredOrder = .tick :: [.request 0] ∧ s.grant = none := by decide

/-- P0's DOZE waits for the segment of channel 3. -/
def dozeWaitsForSegment : State :=
  { (dozeWaits none).setChannel 3 (copier .running 17) with grant := some (.segment 3 (some 16)) }

theorem test_deferred_to_segment_premises :
    dozeWaitsForSegment.lapsesDue = [] ∧
    dozeWaitsForSegment.grant = some (.segment 3 (some 16)) ∧ dozeWaitsForSegment.deferredOrder = .request 0 :: [] ∧
    ((after (.deferredRequestApply 0) dozeWaitsForSegment).channel 3).copied = 16 ∧
    ((after (.deferredRequestApply 0) dozeWaitsForSegment).port 0).mode = .dozing := by decide

/-- P1's CLAIM of watch 2 and then P0's wait for one completion. -/
def claimsWait : State :=
  { (withPort (fun p => { p with inFlight := some (.deferred (.claim 1 2)) })).setPort 1
      { opened .attached with inFlight := some (.deferred (.claim 1 2)) } with
    deferredOrder := [.request 1, .request 0] }

/-- The CLAIM taken first meets the FREE entry (R55), whichever command comes. -/
theorem test_taking_order_decides_claims :
    claimsWait.lapsesDue = [] ∧ claimsWait.grant = none ∧
    claimsWait.deferredOrder = .request 1 :: [.request 0] ∧
    (claimsWait.settle.watch 2).owner = .owned 1 ∧ (claimsWait.settle.port 0).slot.code = .entryTaken ∧
    ((after (.deferredRequestApply 0) claimsWait).watch 2).owner = .owned 1 ∧
    ((after (.deferredRequestApply 1) claimsWait).watch 2).owner = .owned 1 ∧
    (after (.deferredRequestApply 1) claimsWait).deferredOrder = [.request 0] := by decide

/-- The sources of a port's queue, oldest first. -/
def sourcesOf (p : PortId) (s : State) : List Source := (s.port p).queue.map (fun r => r.notice.source)

/-- The sources of P1's queue, oldest first. -/
def sources (s : State) : List Source := sourcesOf 1 s

/-- P1's grant holds the array; P0 owns the watch 15, one tick from its lapse, and has a frame open. -/
def busyAtLastTick : State := { base.setWatch 15 (counting 1) with grant := busy.grant }

/-- Two commands during the grant, its completion, and what waited for it. -/
def bothWait (c d : Instr) : State := (after (.memoryGrant .ends) (after d (after c busyAtLastTick))).settle

/-- A tick and a table request that come during one grant are taken in the order in which they came: each column of R90 is
some queue's. -/
theorem test_tick_and_request_in_either_order :
    sourcesOf 0 (bothWait (.subscribe (frame 3) 15) .tick) = [.watch 15] ∧
    sourcesOf 0 (bothWait .tick (.subscribe (frame 3) 15)) = [] ∧
    ((bothWait (.release (frame 4) 1 15) .tick).watch 15).countdown = 1 ∧
    ((bothWait .tick (.release (frame 4) 1 15)).watch 15).countdown = 0 ∧
    ((bothWait (.queryEntry (frame 4) 1 15) .tick).port 0).slot.data.drop 14 = [0x41, 1, 0, 0x42, 0, 0] ∧
    ((bothWait .tick (.queryEntry (frame 4) 1 15)).port 0).slot.data.drop 14 = [0x42, 0, 0, 0x42, 1, 0] ∧
    ((after (.deferredRequestApply 0) (after (.queryEntry (frame 4) 1 15) (after .tick busyAtLastTick))).port 0).slot =
      ((bothWait .tick (.queryEntry (frame 4) 1 15)).port 0).slot := by
  decide

/-- P0's abort of channel 3, whose notices go to P1, waits for its segment with P2's ATTACH and a tick, in this order of
coming. -/
def abortWaits (order : List Deferred) : State :=
  { (((moving.modPort 0 (fun p => { p with inFlight := some (.afterSegment 3) })).setPort 1 (opened .attached)).setPort 2
      { opened .detached with inFlight := some (.deferred .attach) }).setWatch 15 (counting 1) with
    deferredOrder := order }

/-- The segment that the abort waits for has completed. -/
def abortDue (order : List Deferred) : State := after (.segmentGrant (.ends .atOnce)) (abortWaits order)

/-- The ABORTED notice and the QUIET and PRESENCE notices of one completion in every order that R111 admits: by the order of
coming, or by the command that comes first. -/
theorem test_aborted_notice_in_either_order :
    sources (abortDue [.request 0, .request 2, .tick]).settle = [.channel 3, .presence 2, .watch 15] ∧
    sources (abortDue [.tick, .request 2, .request 0]).settle = [.watch 15, .presence 2, .channel 3] ∧
    sources (after (.deferredRequestApply 2) (abortDue [.request 0, .tick, .request 2])).settle =
      [.watch 15, .presence 2, .channel 3] ∧
    sources (after (.abortAfterSegment 0) (abortDue [.tick, .request 2, .request 0])).settle =
      [.channel 3, .watch 15, .presence 2] := by decide

/-- A tick's trigger that comes before the waiting abort is discarded by it, and one that comes after it finds the channel
IDLE (R132, R134); either way the channel is IDLE. -/
theorem test_abort_and_waiting_tick :
    ((abortDue [.tick, .request 0]).channel 3).phase = .running ∧
    (abortDue [.tick, .request 0]).deferredOrder = [.tick, .request 0] ∧
    ((abortDue [.tick, .request 0]).settle.channel 3).phase = .idle ∧
    ((abortDue [.request 0, .tick]).settle.channel 3).phase = .idle ∧
    ((abortDue [.request 0, .tick]).settle.watch 15).quiet = .lapsed ∧
    (abortDue [.request 0, .tick]).settle.settled := by decide

/-- An abort whose segment has completed goes on waiting through another port's request. -/
theorem test_waiting_abort_premises :
    (abortDue [.request 0, .request 2]).lapsesDue = [] ∧ (abortDue [.request 0, .request 2]).grant = none ∧
    ((abortDue [.request 0, .request 2]).port 0).inFlight = some (.afterSegment 3) ∧
    ((abortDue [.request 0, .request 2]).port 2).inFlight = some (.deferred .attach) ∧
    (abortDue [.request 0, .request 2]).deferredOrder = .request 0 :: [.request 2] ∧
    (after (.deferredRequestApply 2) (abortDue [.request 0, .request 2])).deferredOrder = [.request 0] ∧
    (after (.abortAfterSegment 0) (abortDue [.request 2, .request 0])).deferredOrder = [.request 2] := by decide

/-- States that meet the premises on what is due before a command. -/
theorem test_due_premises :
    ({ base.setWatch 15 (counting 0) with lapsesDue := [15] } : State).supply = true ∧
    ({ base.setWatch 15 (counting 0) with lapsesDue := [15] } : State).lapsesDue ≠ [] ∧
    ({ base with lateNotice := some ⟨1, quietNotice 3 4⟩ } : State).lapsesDue = [] ∧
    ({ base with lateNotice := some ⟨1, quietNotice 3 4⟩ } : State).lateNotice = some ⟨1, quietNotice 3 4⟩ ∧
    ({ base with lateNotice := some ⟨1, quietNotice 3 4⟩ } : State).settle.lateNotice = none ∧
    (abortDue [.request 0]).lateNotice = none ∧
    ({ base with deferredOrder := [.tick] } : State).deferredOrder = .tick :: [] ∧
    busy.grant = some (.access 1 .done []) ∧ busy.lapsesDue = [] ∧ busy.lateNotice = none ∧
    moving.grant = some (.segment 3 (some 16)) ∧ moving.lapsesDue = [] ∧ moving.lateNotice = none := by decide

/-- A segment of channel 3 that ends its run holds the array; P1 is in its report set and waits for a READ under a watch
that P1 follows. -/
def lastSegment : State :=
  { (((ownsChannel .running 16).setPort 1
      { opened .attached with inFlight := some (.waiting ⟨.absolute 8, .read 1⟩) }).setWatch 4
      { holder with config := { holder.config with kinds := 2 } }) with
    grant := some (.segment 3 (some 16)) }

/-- The run-end notice before or after the watch indication of the next grant (R111). -/
theorem test_run_end_notice_in_either_order :
    sources (after (.memoryGrant .whole) (after (.segmentGrant (.ends .atOnce)) lastSegment)) = [.channel 3, .watch 4] ∧
    sources (after (.memoryGrant .whole) (after (.segmentGrant (.ends .afterNext)) lastSegment)) =
      [.watch 4, .channel 3] ∧
    sources (after .tick (after (.segmentGrant (.ends .afterNext)) lastSegment)) = [.channel 3] := by decide

theorem test_run_end_notice_premises :
    lastSegment.lapsesDue = [] ∧ lastSegment.lateNotice = none ∧
    completesWith { lastSegment with grant := none } 3 (some 16)
      (State.setChannel { lastSegment with grant := none } 3
        { copier .idle 16 with copied := 16, runsLeft := .count 0 }) 2 (runNotice 3 3 4 16 0 (.count 0)) ∧
    ({ after (.segmentGrant (.ends .afterNext)) lastSegment with lateNotice := none } : State).settled ∧
    ({ after (.segmentGrant (.ends .afterNext)) lastSegment with lateNotice := none } : State).memoryChoice ≠ none ∧
    ({ after (.segmentGrant (.ends .afterNext)) lastSegment with lateNotice := none } : State).segmentChoice = none ∧
    ({ ownsChannel .running 1 with lateNotice := some ⟨2, quietNotice 3 4⟩ } : State).segmentChoice ≠ none ∧
    ({ ownsChannel .running 1 with lateNotice := some ⟨2, quietNotice 3 4⟩ } : State).memoryChoice = none := by
  decide

/-- A TAKE_NOTICE deferred to a segment's completion before or after that completion's run-end notice (R110). -/
theorem test_take_notice_in_either_order :
    let s : State := { lastSegment.modPort 1 (fun p => { p with inFlight := some (.deferred (.takeNotice 0)) }) with
      deferredOrder := [.request 1] }
    ((after (.deferredRequestApply 1) s).port 1).slot.code = .done ∧
    ((after (.deferredRequestApply 1) (after (.segmentGrant (.ends .afterNext)) s)).port 1).slot.code = .empty ∧
    sources (after (.deferredRequestApply 1) (after (.segmentGrant (.ends .afterNext)) s)).settle = [.channel 3] := by
  decide

theorem test_abort_after_segment_premises :
    moving.lapsesDue = [] ∧ moving.lateNotice = none ∧ (moving.channel 3).owner = .owned 0 ∧
    ((moving.modPort 0 (fun p => { p with inFlight := some (.afterSegment 3) })).port 0).inFlight =
      some (.afterSegment 3) ∧
    ((after (.abortAfterSegment 0) (moving.modPort 0 (fun p => { p with inFlight := some (.afterSegment 3) }))).channel
      3) = { copier .idle 17 with copied := 16 } ∧
    ((moving.segmentCompletes 3 (some 16) .atOnce).channel 3).inRun = true ∧
    ((moving.segmentCompletes 3 (some 17) .atOnce).channel 3).inRun = false := by decide

/-! ### Power and device reset -/

theorem test_power_premises :
    State.reset.supply = true ∧ State.reset.filling = true ∧ filled.filling = false ∧
    (after .supplyLoss filled).supply = false ∧ (after .fillEnd State.reset).ready = true := by decide

/-- A frame whose start came without supply takes no request, also where its end comes after FILL_END (R163). -/
theorem test_dark_frame_takes_no_request :
    ((after (.attach (frame 2)) (after .fillEnd (after .powerOnReset (after (.frameStart 0)
      (after .supplyLoss filled))))).port 0).mode = .detached ∧
    ((after (.attach (frame 2)) (after .fillEnd (after .powerOnReset (after (.frameStart 0) filled)))).port
      0).slot = Slot.none ∧
    ((after (.attach (frame 2)) (after .fillEnd (after .powerOnReset (after (.nop 0 8) (after (.frameStart 0)
      (after .supplyLoss filled)))))).port 0).mode = .attached := by decide

theorem test_device_reset_premises :
    base.supply = true ∧ base.nReset = false ∧ (after .nresetAssertion base).nReset = true ∧
    (after .nresetAssertion base).supply = true ∧ (after .nresetAssertion base).fill = .filled ∧
    (after .nresetAssertion State.reset).fill = .notFilled ∧ (after .nresetAssertion State.reset).supply = true ∧
    (after .nresetRelease (after .nresetAssertion State.reset)).filling = true := by decide

/-! ### States that meet each invariant, with a step from them -/

/-- A filled part with a queue of one command. -/
def stepping (c : Instr) : State := { base with pending := [c] }

/-- A FREE table with P0 ATTACHED is inside the array. -/
theorem base_inBounds (c : Instr) : (stepping c).inBounds := by
  have ha : ∀ a, (stepping c).anchor a = Anchor.default := fun a =>
    (by decide : ∀ a, base.anchor a = Anchor.default) a
  have hp : ∀ p, ∀ k, ((stepping c).port p).cursor k = none := fun p k =>
    (by decide : ∀ p k, (base.port p).cursor k = none) p k
  have hk : ∀ k, ((stepping c).channel k).inside := fun k => (by decide : ∀ k, (base.channel k).inside) k
  have hf : ∀ p, ((stepping c).port p).inFlight = none := fun p =>
    (by decide : ∀ p, (base.port p).inFlight = none) p
  refine ⟨fun a => ?_, fun p k b hb => ?_, hk, fun p t op h => ?_⟩
  · rw [ha a]
    intro g hg
    cases hg
  · rw [hp p k] at hb
    cases hb
  · rw [hf p] at h
    cases h

theorem test_bounds_premises : (stepping .tick).inBounds ∧ (stepping .tick).arrayListed :=
  ⟨base_inBounds .tick, by decide⟩

/-- The waiting request of P0 is inside the array. -/
theorem test_resolved_address_premises :
    ∃ s : State, s.inBounds ∧ (s.port 0).inFlight = some (.waiting ⟨.absolute 32752, .read 16⟩) ∧
      s.resolve 0 ⟨.absolute 32752, .read 16⟩ = .ok ⟨List.range' 32752 16, none⟩ := by
  refine ⟨waitingFor ⟨.absolute 32752, .read 16⟩, ?_, by decide, by decide⟩
  have ha : ∀ a, (waitingFor ⟨.absolute 32752, .read 16⟩).anchor a = Anchor.default := by decide
  have hp : ∀ p k, ((waitingFor ⟨.absolute 32752, .read 16⟩).port p).cursor k = none := by decide
  have hf : ∀ p, ((waitingFor ⟨.absolute 32752, .read 16⟩).port p).inFlight = none ∨
      ((waitingFor ⟨.absolute 32752, .read 16⟩).port p).inFlight =
        some (.waiting ⟨.absolute 32752, .read 16⟩) := by decide
  refine ⟨fun a => ?_, fun p k b hb => ?_, by decide, fun p t op h => ?_⟩
  · rw [ha a]
    intro g hg
    cases hg
  · rw [hp p k] at hb
    cases hb
  · rcases hf p with h' | h'
    · rw [h'] at h
      cases h
    · rw [h'] at h
      cases h
      decide

theorem test_step_gives_next_state : step (stepping .tick) = .next (after .tick base) := rfl

theorem test_port_invariant_premises :
    (stepping .tick).queuesBounded ∧ (stepping .tick).queuesFolded ∧ (stepping .tick).attentionsExact ∧
    (stepping .tick).dozesSound ∧ (stepping .tick).levelsInRange := by decide

theorem test_table_invariant_premises : (stepping .tick).runsSound ∧ (stepping .tick).budgetsSound ∧
    (stepping .tick).quietsSound := by
  have hk : ∀ k, (stepping .tick).channel k = Channel.default := by decide
  refine ⟨⟨by decide, fun k moved h => ?_⟩, fun k => ?_, by decide⟩
  · cases h
  · rw [hk k]
    exact ⟨fun _ => Nat.zero_le _, fun _ => rfl, fun _ => rfl⟩

theorem test_detached_invariant_premises : (stepping .tick).detachedClean ∧ (stepping .tick).ticksWhenReady := by
  decide

theorem test_unready_invariant_premises : State.reset.ready = false ∧
    ({ State.reset with pending := [.fillEnd] } : State).quietWhenNotReady ∧
    ({ State.reset with pending := [.fillEnd] } : State).ticksWhenReady := by decide

theorem test_grant_invariant_premises : (stepping .tick).grantSound ∧ (stepping .tick).waitsSound := by
  have hf : ∀ p, ((stepping .tick).port p).inFlight = none := by decide
  refine ⟨fun p => ?_, by decide⟩
  rw [hf p]
  constructor
  · intro h
    cases h
  · rintro ⟨_, _, h⟩
    cases h

end Sys2Proof.Tests
end

section
/-! SUPPORT. The anchor table and cursor requests (chapter 2): what their operands name, one equation for each outcome
of each request, and the two statements about them. -/

namespace Sys2Proof.AnchorsAndCursors

open Sys2Proof Sys2Proof.Machine Sys2Proof.Claims

/-! ### What the operands name -/

/-- A byte that carries the number of an entry names it, in a table whose numbers fit a byte. -/
theorem index?_ofNat {n : Nat} (hn : n ≤ 256) (i : Fin n) : index? n (BitVec.ofNat 8 i.val) = some i := by
  have hi : (BitVec.ofNat 8 i.val).toNat = i.val := Nat.mod_eq_of_lt (i.isLt.trans_le hn)
  simp [index?, hi]

theorem index?_eq_none {n : Nat} {b : Byte} (h : n ≤ b.toNat) : index? n b = none :=
  dif_neg (Nat.not_lt.mpr h)

theorem access?_eq_accessOf {b : Byte} (h : b.toNat ≤ 1) : access? b = some (accessOf b) := by
  obtain rfl | rfl : b = 0 ∨ b = 1 := by bv_omega
  · rfl
  · rfl

theorem access?_eq_none {b : Byte} (h : 2 ≤ b.toNat) : access? b = none := by
  have h0 : b ≠ 0 := by bv_omega
  have h1 : b ≠ 1 := by bv_omega
  unfold access?
  rw [if_neg h0, if_neg h1]

/-! ### What SET_ANCHOR does to a cursor -/

theorem rewindBinding_eq_rewound (a : AnchorId) : rewindBinding a = rewound a := by
  funext c
  cases c with
  | none => rfl
  | some b => by_cases h : b.anchor = a <;> simp [rewindBinding, rewound, h]

theorem unbindFrom_eq_unbound (a : AnchorId) : unbindFrom a = unbound a := by
  funext c
  cases c with
  | none => rfl
  | some b => by_cases h : b.anchor = a <;> simp [unbindFrom, unbound, Option.filter, h]

/-- An effect on one anchor and on the cursors of every port, completed: the requesting port's cursors change whether or
not its frame is over, since the two are different fields. -/
theorem complete_setAnchor_mapCursors_taken (s : State) (f : Frame) (a : AnchorId) (e : Anchor)
    (g : Option Binding → Option Binding) (c : ResultCode) (d : List Byte) :
    (((s.taken f).setAnchor a e).mapCursors g).complete f.port c d =
      ((s.setAnchor a e).mapCursors g).answered f c d := by
  have ht : (s.taken f).setAnchor a e = (s.setAnchor a e).taken f := rfl
  rw [ht]
  refine complete_mapPorts_taken _ f _ _ c d (fun _ _ => rfl) ?_ ?_
  · rw [taken_port]
  · rw [taken_port]

/-! ### SET_ANCHOR, an equation for each outcome (R24 to R26) -/

section SetAnchor

variable {p : PortId} {b : AnchorBytes} {s : State} {a : AnchorId} {m : Access}

/-- The length is refused with a base that is not NULL; NULL needs no length (R24). -/
abbrev badLength (b : AnchorBytes) : Prop := b.base ≠ 65535 ∧ (b.length.toNat = 0 ∨ 32768 < b.length.toNat)

theorem applySetAnchor_names_none (h : index? 32 b.anchor = none ∨ access? b.access = none) :
    applySetAnchor p b s = .answer s .badParameter := by
  unfold applySetAnchor
  obtain h | h := h
  · rw [h]
  · rw [h]
    cases index? 32 b.anchor <;> rfl

/-- The checks on operands that name an anchor and an access setting, in their order. -/
theorem applySetAnchor_named (ha : index? 32 b.anchor = some a) (hm : access? b.access = some m) :
    applySetAnchor p b s =
      if badLength b then .answer s .badParameter
      else if (s.anchor a).owner ≠ .owned p then .answer s .notOwner
      else if b.base = 65535 then
        .done ((s.setAnchor a ⟨(s.anchor a).owner, none, b.ring != 0, m⟩).mapCursors (unbound a))
      else if 32768 < b.base.toNat + b.length.toNat then .answer s .outOfRange
      else
        .done ((s.setAnchor a
          ⟨(s.anchor a).owner, some ⟨b.base.toNat, b.length.toNat⟩, b.ring != 0, m⟩).mapCursors (rewound a)) := by
  unfold applySetAnchor
  rw [ha, hm, ← unbindFrom_eq_unbound, ← rewindBinding_eq_rewound]
  rfl

theorem applySetAnchor_badLength (ha : index? 32 b.anchor = some a) (hm : access? b.access = some m)
    (hl : badLength b) : applySetAnchor p b s = .answer s .badParameter := by
  rw [applySetAnchor_named ha hm, if_pos hl]

theorem applySetAnchor_notOwner (ha : index? 32 b.anchor = some a) (hm : access? b.access = some m)
    (hl : ¬ badLength b) (ho : (s.anchor a).owner ≠ .owned p) : applySetAnchor p b s = .answer s .notOwner := by
  rw [applySetAnchor_named ha hm, if_neg hl, if_pos ho]

theorem applySetAnchor_null (ha : index? 32 b.anchor = some a) (hm : access? b.access = some m)
    (ho : (s.anchor a).owner = .owned p) (hn : b.base = 65535) :
    applySetAnchor p b s =
      .done ((s.setAnchor a ⟨.owned p, none, b.ring != 0, m⟩).mapCursors (unbound a)) := by
  rw [applySetAnchor_named ha hm, if_neg (fun hl => hl.1 hn), if_neg (not_not_intro ho), if_pos hn, ho]

theorem applySetAnchor_outOfRange (ha : index? 32 b.anchor = some a) (hm : access? b.access = some m)
    (hl : ¬ badLength b) (ho : (s.anchor a).owner = .owned p) (hn : b.base ≠ 65535)
    (hr : 32768 < b.base.toNat + b.length.toNat) : applySetAnchor p b s = .answer s .outOfRange := by
  rw [applySetAnchor_named ha hm, if_neg hl, if_neg (not_not_intro ho), if_neg hn, if_pos hr]

theorem applySetAnchor_base (ha : index? 32 b.anchor = some a) (hm : access? b.access = some m)
    (hl : ¬ badLength b) (ho : (s.anchor a).owner = .owned p) (hn : b.base ≠ 65535)
    (hr : b.base.toNat + b.length.toNat ≤ 32768) :
    applySetAnchor p b s =
      .done ((s.setAnchor a ⟨.owned p, some ⟨b.base.toNat, b.length.toNat⟩, b.ring != 0, m⟩).mapCursors
        (rewound a)) := by
  rw [applySetAnchor_named ha hm, if_neg hl, if_neg (not_not_intro ho), if_neg hn, if_neg (Nat.not_lt.mpr hr), ho]

/-- A parameter out of its values is refused before any other check. -/
theorem applySetAnchor_badParameter
    (h : 32 ≤ b.anchor.toNat ∨ 2 ≤ b.access.toNat ∨ badLength b) :
    applySetAnchor p b s = .answer s .badParameter := by
  cases ha : index? 32 b.anchor with
  | none => exact applySetAnchor_names_none (.inl ha)
  | some a =>
    cases hm : access? b.access with
    | none => exact applySetAnchor_names_none (.inr hm)
    | some m =>
      obtain h | h | hl := h
      · rw [index?_eq_none h] at ha
        cases ha
      · rw [access?_eq_none h] at hm
        cases hm
      · exact applySetAnchor_badLength ha hm hl

end SetAnchor

/-! ### SET_ANCHOR at its frame end -/

theorem exec_setAnchor_refused {s : State} {f : Frame} {b : AnchorBytes} {c : ResultCode} (h : s.serves f.port)
    (hb : f.bits = 8 * 9) (hx : applySetAnchor f.port b (s.taken f) = .answer (s.taken f) c) :
    exec (.setAnchor f b) s = .next (s.answered f c []) :=
  requestFrame_no_effect h hb rfl (by decide) (by decide) hx

theorem exec_setAnchor_done {s : State} {f : Frame} {b : AnchorBytes} {a : AnchorId} {e : Anchor}
    {g : Option Binding → Option Binding} (h : s.serves f.port) (hb : f.bits = 8 * 9)
    (hx : applySetAnchor f.port b (s.taken f) = .done (((s.taken f).setAnchor a e).mapCursors g)) :
    exec (.setAnchor f b) s = .next (((s.setAnchor a e).mapCursors g).answered f .done []) := by
  have hr : requestFrame f 0x20 .request (.setAnchor b) s = _ :=
    requestFrame_answers h hb rfl (by decide) (by decide) hx
  rw [← complete_setAnchor_mapCursors_taken]
  exact hr

/-- Settles O17: each outcome is the equation of `applySetAnchor` for it, taken to the frame end. -/
theorem setAnchorReplacesEntry : Obligations.SetAnchorReplacesEntry := by
  refine ⟨fun f a base length ring access s hs hb ho hm => ⟨fun hn h0 hr => ?base, fun hn => ?null⟩,
    fun f b s hs hb => ⟨fun h => ?badParameter, fun a ha hm hl => ?named⟩⟩
  case base =>
    have hl : ¬ badLength ⟨BitVec.ofNat 8 a.val, base, length, ring, access⟩ := by
      rintro ⟨-, hl⟩
      dsimp only at hl
      omega
    exact exec_setAnchor_done hs hb
      (applySetAnchor_base (index?_ofNat (by decide) a) (access?_eq_accessOf hm) hl ho hn hr)
  case null =>
    exact exec_setAnchor_done hs hb
      (applySetAnchor_null (index?_ofNat (by decide) a) (access?_eq_accessOf hm) ho hn)
  case badParameter => exact exec_setAnchor_refused hs hb (applySetAnchor_badParameter h)
  case named =>
    have ha' : index? 32 b.anchor = some a := by rw [ha, index?_ofNat (by decide)]
    have hm' : access? b.access = some (accessOf b.access) := access?_eq_accessOf (by omega)
    have hl' : ¬ badLength b := by
      rintro ⟨hn, h⟩
      obtain hl | hl := hl
      · exact hn hl
      · omega
    exact ⟨fun ho => exec_setAnchor_refused hs hb (applySetAnchor_notOwner ha' hm' hl' ho),
      fun ho hn hr => exec_setAnchor_refused hs hb (applySetAnchor_outOfRange ha' hm' hl' ho hn hr)⟩

/-! ### BIND_CURSOR and QUERY_CURSOR, an equation for each outcome (R28, R29) -/

/-- The offsets R28 admits: up to the length, and below it on a ring. -/
theorem admitsOffset_iff (g : Region) (ring : Bool) (offset : Nat) :
    g.admitsOffset ring offset = true ↔ offset ≤ g.length ∧ (ring = true → offset < g.length) := by
  cases ring with
  | false => simp [Region.admitsOffset]
  | true => simpa [Region.admitsOffset] using Nat.le_of_lt

section BindCursor

variable {p : PortId} {cursor anchor : Byte} {offset : Half} {s : State} {c : CursorId} {a : AnchorId} {g : Region}

theorem applyBindCursor_badParameter (h : 4 ≤ cursor.toNat ∨ 32 ≤ anchor.toNat) :
    applyBindCursor p cursor anchor offset s = .answer s .badParameter := by
  unfold applyBindCursor
  obtain h | h := h
  · rw [index?_eq_none h]
  · rw [index?_eq_none h]
    cases index? 4 cursor <;> rfl

theorem applyBindCursor_nullAnchor (hc : index? 4 cursor = some c) (ha : index? 32 anchor = some a)
    (hg : (s.anchor a).region = none) : applyBindCursor p cursor anchor offset s = .answer s .nullAnchor := by
  unfold applyBindCursor
  rw [hc, ha]
  simp only [hg]

/-- On an anchor with a region the offset decides; its owner does not (R28). -/
theorem applyBindCursor_region (hc : index? 4 cursor = some c) (ha : index? 32 anchor = some a)
    (hg : (s.anchor a).region = some g) :
    applyBindCursor p cursor anchor offset s =
      if g.admitsOffset (s.anchor a).ring offset.toNat = true then
        .done (s.modPort p (fun q => q.setCursor c (some ⟨a, offset.toNat⟩)))
      else .answer s .outOfRange := by
  unfold applyBindCursor
  rw [hc, ha]
  cases h : g.admitsOffset (s.anchor a).ring offset.toNat <;> simp [hg, h]

theorem applyBindCursor_binds (hc : index? 4 cursor = some c) (ha : index? 32 anchor = some a)
    (hg : (s.anchor a).region = some g)
    (hi : offset.toNat ≤ g.length ∧ ((s.anchor a).ring = true → offset.toNat < g.length)) :
    applyBindCursor p cursor anchor offset s =
      .done (s.modPort p (fun q => q.setCursor c (some ⟨a, offset.toNat⟩))) := by
  rw [applyBindCursor_region hc ha hg, if_pos ((admitsOffset_iff ..).mpr hi)]

theorem applyBindCursor_outOfRange (hc : index? 4 cursor = some c) (ha : index? 32 anchor = some a)
    (hg : (s.anchor a).region = some g)
    (hi : ¬ (offset.toNat ≤ g.length ∧ ((s.anchor a).ring = true → offset.toNat < g.length))) :
    applyBindCursor p cursor anchor offset s = .answer s .outOfRange := by
  rw [applyBindCursor_region hc ha hg, if_neg (mt (admitsOffset_iff ..).mp hi)]

end BindCursor

theorem applyQueryCursor_badParameter {p : PortId} {cursor : Byte} {s : State} (h : 4 ≤ cursor.toNat) :
    applyQueryCursor p cursor s = .answer s .badParameter := by
  unfold applyQueryCursor
  rw [index?_eq_none h]

theorem applyQueryCursor_reports (p : PortId) (c : CursorId) (s : State) :
    applyQueryCursor p (BitVec.ofNat 8 c.val) s = .report s (bindingBytes ((s.port p).cursor c)) := by
  unfold applyQueryCursor
  rw [index?_ofNat (by decide)]

/-- A port's cursors stand while its request is applied. -/
theorem taken_cursor (s : State) (f : Frame) (c : CursorId) :
    ((s.taken f).port f.port).cursor c = (s.port f.port).cursor c := by
  rw [taken_port]
  rfl

/-! ### BIND_CURSOR and QUERY_CURSOR at their frame ends -/

section AtFrameEnd

variable {s : State} {f : Frame}

theorem exec_bindCursor_refused {cursor anchor : Byte} {offset : Half} {code : ResultCode} (h : s.serves f.port)
    (hb : f.bits = 8 * 6)
    (hx : applyBindCursor f.port cursor anchor offset (s.taken f) = .answer (s.taken f) code) :
    exec (.bindCursor f cursor anchor offset) s = .next (s.answered f code []) :=
  requestFrame_no_effect h hb rfl (by decide) (by decide) hx

theorem exec_bindCursor_done {cursor anchor : Byte} {offset : Half} {c : CursorId} {b : Option Binding}
    (h : s.serves f.port) (hb : f.bits = 8 * 6)
    (hx : applyBindCursor f.port cursor anchor offset (s.taken f) =
      .done ((s.taken f).modPort f.port (fun q => q.setCursor c b))) :
    exec (.bindCursor f cursor anchor offset) s =
      .next ((s.modPort f.port (fun q => { q with cursors := q.cursors.set c b })).answered f .done []) := by
  have hr : requestFrame f 0x21 .request (.bindCursor cursor anchor offset) s = _ :=
    requestFrame_answers h hb rfl (by decide) (by decide) hx
  rw [← complete_modPort_taken s f (fun q => q.setCursor c b) _ _ _ (by rw [taken_port]; rfl)
    (by rw [taken_port]; rfl)]
  exact hr

theorem exec_queryCursor_badParameter {cursor : Byte} (h : s.serves f.port) (hb : f.bits = 8 * 3)
    (hc : 4 ≤ cursor.toNat) : exec (.queryCursor f cursor) s = .next (s.answered f .badParameter []) :=
  requestFrame_no_effect h hb rfl (by decide) (by decide) (applyQueryCursor_badParameter hc)

theorem exec_queryCursor_reports (h : s.serves f.port) (hb : f.bits = 8 * 3) (c : CursorId) :
    exec (.queryCursor f (BitVec.ofNat 8 c.val)) s =
      .next (s.answered f .done (bindingBytes ((s.port f.port).cursor c))) := by
  rw [← taken_cursor]
  exact requestFrame_no_effect h hb rfl (by decide) (by decide) (applyQueryCursor_reports f.port c (s.taken f))

end AtFrameEnd

/-- Settles O18: the outcomes of `applyBindCursor` and `applyQueryCursor`, taken to their frame ends. -/
theorem bindAndQueryCursor : Obligations.BindAndQueryCursor := by
  refine ⟨fun f offset s hs hb => ⟨fun cursor anchor h => ?badParameter,
      fun c a => ⟨fun hg => ?nullAnchor, fun g hg => ⟨fun hi => ?bound, fun hi => ?outOfRange⟩⟩⟩,
    fun f s hs hb => ⟨fun cursor h => exec_queryCursor_badParameter hs hb h,
      fun c => ⟨fun hc => ?unbound, fun b hc => ?report⟩⟩⟩
  case badParameter => exact exec_bindCursor_refused hs hb (applyBindCursor_badParameter h)
  case nullAnchor =>
    exact exec_bindCursor_refused hs hb
      (applyBindCursor_nullAnchor (index?_ofNat (by decide) c) (index?_ofNat (by decide) a) hg)
  case bound =>
    exact exec_bindCursor_done hs hb
      (applyBindCursor_binds (index?_ofNat (by decide) c) (index?_ofNat (by decide) a) hg hi)
  case outOfRange =>
    exact exec_bindCursor_refused hs hb
      (applyBindCursor_outOfRange (index?_ofNat (by decide) c) (index?_ofNat (by decide) a) hg hi)
  case unbound =>
    rw [exec_queryCursor_reports hs hb, hc]
    rfl
  case report =>
    rw [exec_queryCursor_reports hs hb, hc]
    rfl

end Sys2Proof.AnchorsAndCursors
end

section
/-! SUPPORT. What a table, port or ownership request can do to the state: one list of cases, which every statement about
all requests goes through, and the frame end that takes such a request. -/

namespace Sys2Proof.RequestEffects

open Sys2Proof Sys2Proof.Machine Sys2Proof.Claims

/-! ### The cases -/

/-- What applying a request of port `p` in state `s` can leave. The owner of an entry stands or becomes FREE unless the
request takes the entry for `p`, and no port but `p` enters a subscriber set. -/
inductive Effect (p : PortId) (s : State) : State → Prop where
  | none : Effect p s s
  | port (g : Port → Port) (hg : (s.port p).mode ≠ .detached → (g (s.port p)).mode ≠ .detached) :
      Effect p s (s.modPort p g)
  | own (x : Entry) : Effect p s (s.setOwner x (.owned p))
  | anchor (a : AnchorId) (e : Anchor) (g : Option Binding → Option Binding)
      (ho : e.owner = (s.anchor a).owner ∨ e.owner = .free) (hg : g Option.none = Option.none) :
      Effect p s ((s.setAnchor a e).mapCursors g)
  | watch (w : WatchId) (e : Watch) (ho : e.owner = (s.watch w).owner ∨ e.owner = .free)
      (hs : ∀ q : PortId, q ≠ p → e.subscribers.getLsbD q.val = true →
        (s.watch w).subscribers.getLsbD q.val = true) :
      Effect p s (s.setWatch w e)
  | channel (k : ChannelId) (e : Channel) (ho : e.owner = (s.channel k).owner ∨ e.owner = .free) :
      Effect p s (s.setChannel k e)
  | abort (k : ChannelId) : Effect p s (s.abort k)
  | attach (hm : (s.port p).mode = .detached) :
      Effect p s (((s.leaveSets p).setMode p .attached).announce p kindAttached)
  | reset (m : PortMode) (kind : Byte) : Effect p s (((s.portReset p).setMode p m).announce p kind)

theorem done_state (s : State) : (Applied.done s).state = s := rfl

/-! ### Ports and presence -/

section Requests

variable (p : PortId) (s : State)

theorem applyAttach_effect : Effect p s (applyAttach p s).state := by
  unfold applyAttach
  split
  · next hm => exact .attach hm
  · exact .reset .attached kindReattached

theorem applyDetach_effect : Effect p s (applyDetach p s).state := .reset .detached kindDetached

theorem applyDoze_effect : Effect p s (applyDoze p s).state := by
  unfold applyDoze
  split
  · exact .none
  · rw [done_state, State.setMode]
    exact .port _ (fun _ => PortMode.noConfusion)

theorem applySetLevels_effect (threshold wake : Byte) : Effect p s (applySetLevels p threshold wake s).state := by
  unfold applySetLevels
  split
  · exact .none
  · rw [done_state]
    exact .port _ id

theorem applyClearFlags_effect (flags : Byte) : Effect p s (applyClearFlags p flags s).state := by
  unfold applyClearFlags
  split
  · exact .none
  · rw [done_state]
    exact .port _ id

/-! ### The notice unit -/

theorem applyTakeNotice_effect (mode : Byte) : Effect p s (applyTakeNotice p mode s).state := by
  unfold applyTakeNotice
  dsimp only
  split
  · exact .none
  · split
    · exact .none
    · split
      · exact .none
      · exact .port (fun _ => _) (fun h => by split <;> exact h)

theorem applyFinishService_effect : Effect p s (applyFinishService p s).state := by
  unfold applyFinishService
  dsimp only
  split
  · exact .none
  · exact .port (fun _ => _) id

/-! ### Anchors and cursors -/

theorem applySetAnchor_effect (b : AnchorBytes) : Effect p s (applySetAnchor p b s).state := by
  unfold applySetAnchor
  split
  · dsimp only
    split_ifs
    · exact .none
    · exact .none
    · exact .anchor _ _ _ (.inl rfl) rfl
    · exact .none
    · exact .anchor _ _ _ (.inl rfl) rfl
  · exact .none

theorem applyBindCursor_effect (cursor anchor : Byte) (offset : Half) :
    Effect p s (applyBindCursor p cursor anchor offset s).state := by
  unfold applyBindCursor
  split
  · split
    · exact .none
    · split
      · exact .none
      · rw [done_state]
        exact .port _ id
  · exact .none

theorem applyQueryCursor_effect (cursor : Byte) : Effect p s (applyQueryCursor p cursor s).state := by
  unfold applyQueryCursor
  split <;> exact .none

/-! ### Watches -/

theorem applySetWatch_effect (b : WatchBytes) : Effect p s (applySetWatch p b s).state := by
  unfold applySetWatch
  split
  · exact .none
  · dsimp only
    split
    · exact .none
    · exact .watch _ _ (.inl rfl) (fun _ _ h => h)

/-- No port but `p` is in the set that holds `p` alone. -/
theorem getLsbD_single_other {p q : PortId} (h : q ≠ p) : (single p.val : BitVec 4).getLsbD q.val = false := by
  revert p q
  decide

theorem applySubscribe_effect (watch : Byte) : Effect p s (applySubscribe p watch s).state := by
  unfold applySubscribe
  split
  · exact .none
  · dsimp only
    split
    · exact .none
    · refine .watch _ _ (.inl rfl) (fun q hq h => ?_)
      rwa [BitVec.getLsbD_or, getLsbD_single_other hq, Bool.or_false] at h

theorem applyUnsubscribe_effect (watch : Byte) : Effect p s (applyUnsubscribe p watch s).state := by
  unfold applyUnsubscribe
  split
  · exact .none
  · dsimp only
    split
    · exact .none
    · refine .watch _ _ (.inl rfl) (fun q _ h => ?_)
      rw [BitVec.getLsbD_and, Bool.and_eq_true] at h
      exact h.1

/-! ### Channels -/

theorem trigger_owner (e : Channel) : e.trigger.owner = e.owner := by
  unfold Channel.trigger
  split <;> rfl

theorem applySetChannel_effect (b : ChannelBytes) : Effect p s (applySetChannel p b s).state := by
  unfold applySetChannel
  split
  · exact .none
  · dsimp only
    split_ifs
    · exact .none
    · exact .none
    · exact .channel _ _ (.inl rfl)

theorem applyArmChannel_effect (channel : Byte) : Effect p s (applyArmChannel p channel s).state := by
  unfold applyArmChannel
  split
  · exact .none
  · dsimp only
    split_ifs
    · exact .none
    · exact .none
    · exact .none
    · exact .channel _ _ (.inl rfl)

theorem applyStartChannel_effect (channel : Byte) : Effect p s (applyStartChannel p channel s).state := by
  unfold applyStartChannel
  split
  · exact .none
  · dsimp only
    split_ifs
    · exact .none
    · exact .none
    · exact .channel _ _ (.inl (trigger_owner _))

theorem applyAbortChannel_effect (channel : Byte) : Effect p s (applyAbortChannel p channel s).state := by
  unfold applyAbortChannel
  split
  · exact .none
  · split
    · exact .none
    · exact .abort _

/-! ### Ownership -/

theorem releaseEntry_effect (x : Entry) : Effect p s (s.releaseEntry x) := by
  cases x with
  | anchor a => exact .anchor a _ _ (.inr rfl) rfl
  | watch w => exact .watch w _ (.inr rfl) (fun q _ h => by simp [Watch.released] at h)
  | channel k => exact .channel k _ (.inr rfl)

theorem applyClaim_effect (table index : Byte) : Effect p s (applyClaim p table index s).state := by
  unfold applyClaim
  split
  · exact .none
  · split
    · exact .own _
    · exact .none

theorem applyAdopt_effect (table index : Byte) : Effect p s (applyAdopt p table index s).state := by
  unfold applyAdopt
  split
  · exact .none
  · split
    · exact .own _
    · exact .none

theorem applyRelease_effect (table index : Byte) : Effect p s (applyRelease p table index s).state := by
  unfold applyRelease
  split
  · exact .none
  · split_ifs
    · exact .none
    · exact .none
    · exact releaseEntry_effect p s _

theorem applyQueryEntry_effect (table index : Byte) : Effect p s (applyQueryEntry p table index s).state := by
  unfold applyQueryEntry
  split <;> exact .none

/-! ### Every request -/

theorem applyRequest_effect (r : Request) : Effect p s (applyRequest p r s).state := by
  cases r with
  | attach => exact applyAttach_effect p s
  | detach => exact applyDetach_effect p s
  | doze => exact applyDoze_effect p s
  | setLevels threshold wake => exact applySetLevels_effect p s threshold wake
  | clearFlags flags => exact applyClearFlags_effect p s flags
  | takeNotice mode => exact applyTakeNotice_effect p s mode
  | finishService => exact applyFinishService_effect p s
  | setAnchor a => exact applySetAnchor_effect p s a
  | bindCursor cursor anchor offset => exact applyBindCursor_effect p s cursor anchor offset
  | queryCursor cursor => exact applyQueryCursor_effect p s cursor
  | setWatch w => exact applySetWatch_effect p s w
  | subscribe watch => exact applySubscribe_effect p s watch
  | unsubscribe watch => exact applyUnsubscribe_effect p s watch
  | setChannel c => exact applySetChannel_effect p s c
  | armChannel channel => exact applyArmChannel_effect p s channel
  | startChannel channel => exact applyStartChannel_effect p s channel
  | abortChannel channel => exact applyAbortChannel_effect p s channel
  | claim table index => exact applyClaim_effect p s table index
  | adopt table index => exact applyAdopt_effect p s table index
  | release table index => exact applyRelease_effect p s table index
  | queryEntry table index => exact applyQueryEntry_effect p s table index

end Requests

/-! ### The frame ends -/

/-- What R156 distinguishes of a table, port or ownership request: whether it is an ATTACH. -/
def kindOf : Request → FrameKind
  | .attach => .attach
  | _ => .request

/-- A command that is the frame of such a request is its frame end. -/
theorem exec_of_requestOf {i : Instr} {f : Frame} {code : Byte} {r : Request} (h : requestOf i = some (f, code, r))
    (s : State) : exec i s = requestFrame f code (kindOf r) r s := by
  cases i <;> cases h <;> rfl

theorem kindOf_ne_nop (r : Request) : kindOf r ≠ .nop := by
  cases r <;> exact FrameKind.noConfusion

theorem kindOf_ne_unknown (r : Request) : kindOf r ≠ .unknown := by
  cases r <;> exact FrameKind.noConfusion

theorem kindOf_eq_attach_iff (r : Request) : kindOf r = .attach ↔ r = .attach := by
  cases r <;> simp [kindOf]

/-- Such a frame on a port that takes it: an ATTACH in every port state, any other request on a port that is not
DETACHED (R139, R156). -/
theorem requestFrame_taken {s : State} {f : Frame} {code : Byte} {r : Request} (h : s.frameOpen f.port)
    (hi : (s.port f.port).inFlight = none) (hm : (s.port f.port).mode ≠ .detached ∨ r = .attach)
    (hf : frameFits code 0 f.bits = true) :
    requestFrame f code (kindOf r) r s = .next ((s.frameOver f.port f.bits).takeRequest f.port f.tag r) := by
  have hd : ¬ ((s.port f.port).mode = .detached ∧ kindOf r ≠ .attach) := by
    rintro ⟨hd, hk⟩
    exact hm.elim (fun hm => hm hd) (fun hr => hk ((kindOf_eq_attach_iff r).mpr hr))
  have hv : (s.port f.port).verdict f.bits true (kindOf r) = .taken := by
    rw [verdict_open h, if_neg (frameFits_pos hf), if_neg (by decide), if_neg (kindOf_ne_nop r), hi,
      if_neg (by decide), if_neg (kindOf_ne_unknown r), if_neg hd]
  unfold requestFrame frameEnd
  rw [if_pos h.1, endFrame_open h, hf, hv]
  rfl

theorem exec_taken {i : Instr} {s : State} {f : Frame} {code : Byte} {r : Request}
    (hr : requestOf i = some (f, code, r)) (h : s.frameOpen f.port) (hi : (s.port f.port).inFlight = none)
    (hm : (s.port f.port).mode ≠ .detached ∨ r = .attach) (hf : frameFits code 0 f.bits = true) :
    exec i s = .next ((s.frameOver f.port f.bits).takeRequest f.port f.tag r) :=
  (exec_of_requestOf hr s).trans (requestFrame_taken h hi hm hf)

/-- Once the array is free a request is applied at its taking (R160). -/
theorem takeRequest_free {s : State} (hg : s.grant = none) (f : Frame) (r : Request) :
    (s.frameOver f.port f.bits).takeRequest f.port f.tag r = (s.taken f).applyAndComplete f.port r := by
  have hg' : (s.frameOver f.port f.bits).grant = none := hg
  unfold State.takeRequest
  simp only [hg']
  rfl

/-- While a grant holds the array it waits, behind what waits already (R55, R160). -/
theorem takeRequest_granted {s : State} {g : Grant} (hg : s.grant = some g) (f : Frame) (r : Request) :
    (s.frameOver f.port f.bits).takeRequest f.port f.tag r =
      { Sys2Proof.Claims.inFlight s f (deferral g r) with
        deferredOrder := s.deferredOrder ++ [.request f.port] } := by
  have hg' : (s.frameOver f.port f.bits).grant = some g := hg
  have hs : ((s.frameOver f.port f.bits).showPending f.port f.tag).setInFlight f.port (deferral g r) =
      Sys2Proof.Claims.inFlight s f (deferral g r) := by
    simp only [State.showPending, State.setInFlight, Sys2Proof.Claims.inFlight, modPort_modPort]
  unfold State.takeRequest
  simp only [hg']
  rw [hs]
  rfl

end Sys2Proof.RequestEffects
end

section
/-! SUPPORT. What a DETACHED port keeps (R53, R64, R140): nothing owned, nothing subscribed to, an empty queue, first
levels, no bound cursor. Each operation keeps it for each port, and so does every step. -/

namespace Sys2Proof.DetachedPorts

open Sys2Proof Sys2Proof.Machine Sys2Proof.Claims Sys2Proof.RequestEffects

/-- Port `p`, if DETACHED, keeps what a DETACHED port keeps, owns no entry and subscribes to no watch. -/
def CleanAt (p : PortId) (s : State) : Prop :=
  (s.port p).cleanDetached ∧
    ((s.port p).mode = .detached →
      (∀ x, s.ownerOf x ≠ .owned p) ∧ ∀ w, (s.watch w).subscribers.getLsbD p.val = false)

/-- The three tables with owners, taken together. -/
theorem owns_none_iff (s : State) (p : PortId) :
    (∀ x, s.ownerOf x ≠ .owned p) ↔
      (∀ a, (s.anchor a).owner ≠ .owned p) ∧ (∀ w, (s.watch w).owner ≠ .owned p) ∧
        ∀ k, (s.channel k).owner ≠ .owned p := by
  constructor
  · intro h
    exact ⟨fun a => h (.anchor a), fun w => h (.watch w), fun k => h (.channel k)⟩
  · rintro ⟨ha, hw, hk⟩ x
    cases x with
    | anchor a => exact ha a
    | watch w => exact hw w
    | channel k => exact hk k

theorem detachedClean_iff (s : State) : s.detachedClean ↔ ∀ p, CleanAt p s := by
  simp only [State.detachedClean, CleanAt, owns_none_iff, and_assoc]

/-! ### When a change keeps it -/

section Operations

variable {p : PortId} {s t : State}

/-- Nothing is asked of a port that is not DETACHED. -/
theorem cleanAt_of_awake (h : (s.port p).mode ≠ .detached) : CleanAt p s :=
  ⟨fun hm => absurd hm h, fun hm => absurd hm h⟩

/-- The port may change; no owner field and no subscriber set does. -/
theorem CleanAt.of_port (h : CleanAt p s) (ho : ∀ x, t.ownerOf x = s.ownerOf x)
    (hw : ∀ w, (t.watch w).subscribers = (s.watch w).subscribers)
    (hp : (t.port p).mode = .detached →
      (s.port p).mode = .detached ∧ ((s.port p).cleanDetached → (t.port p).cleanDetached)) : CleanAt p t := by
  obtain ⟨hc, hn⟩ := h
  refine ⟨fun hm => (hp hm).2 hc hm, fun hm => ?_⟩
  simp only [ho, hw]
  exact hn (hp hm).1

/-- The tables may change; the port does not, and gains no entry and no subscription. -/
theorem CleanAt.of_tables (h : CleanAt p s) (hp : t.port p = s.port p)
    (ho : ∀ x, t.ownerOf x = .owned p → s.ownerOf x = .owned p)
    (hw : ∀ w, (t.watch w).subscribers.getLsbD p.val = true → (s.watch w).subscribers.getLsbD p.val = true) :
    CleanAt p t := by
  obtain ⟨hc, hn⟩ := h
  refine ⟨hp ▸ hc, fun hm => ?_⟩
  obtain ⟨hno, hns⟩ := hn (hp ▸ hm)
  refine ⟨fun x hx => hno x (ho x hx), fun w => ?_⟩
  exact Bool.eq_false_iff.mpr (fun hb => Bool.eq_false_iff.mp (hns w) (hw w hb))

/-- Nothing outside the tables and the ports is looked at. -/
theorem CleanAt.congr (h : CleanAt p s) (ha : t.anchors = s.anchors) (hw : t.watches = s.watches)
    (hk : t.channels = s.channels) (hp : t.ports = s.ports) : CleanAt p t := by
  have hport : t.port p = s.port p := by rw [State.port, State.port, hp]
  have hwatch : ∀ w, t.watch w = s.watch w := fun w => by rw [State.watch, State.watch, hw]
  refine h.of_tables hport (fun x hx => ?_) (fun w hs => hwatch w ▸ hs)
  simp only [State.ownerOf, State.anchor, State.watch, State.channel, ha, hw, hk] at hx ⊢
  exact hx

theorem CleanAt.withArray (h : CleanAt p s) (m : Memory) : CleanAt p { s with array := m } := h.congr rfl rfl rfl rfl

theorem CleanAt.withGrant (h : CleanAt p s) (g : Option Grant) : CleanAt p { s with grant := g } :=
  h.congr rfl rfl rfl rfl

theorem CleanAt.withPointer (h : CleanAt p s) (r : Requester) : CleanAt p { s with pointer := r } :=
  h.congr rfl rfl rfl rfl

theorem CleanAt.advancePointer (h : CleanAt p s) (r : Requester) : CleanAt p (s.advancePointer r) := h.withPointer _

theorem CleanAt.withEnginePointer (h : CleanAt p s) (k : ChannelId) : CleanAt p { s with enginePointer := k } :=
  h.congr rfl rfl rfl rfl

theorem CleanAt.withDeferredOrder (h : CleanAt p s) (ds : List Deferred) : CleanAt p { s with deferredOrder := ds } :=
  h.congr rfl rfl rfl rfl

theorem CleanAt.withPending (h : CleanAt p s) (is : List Instr) : CleanAt p { s with pending := is } :=
  h.congr rfl rfl rfl rfl

/-! ### Changes of one table entry -/

theorem CleanAt.setAnchor (h : CleanAt p s) {a : AnchorId} {e : Anchor}
    (ho : e.owner = .owned p → (s.anchor a).owner = .owned p) : CleanAt p (s.setAnchor a e) := by
  refine h.of_tables rfl (fun x hx => ?_) (fun _ hw => hw)
  cases x with
  | anchor b =>
    simp only [State.ownerOf, anchor_setAnchor] at hx ⊢
    split at hx
    · next hb => exact hb ▸ ho hx
    · exact hx
  | watch w => exact hx
  | channel k => exact hx

theorem CleanAt.setWatch (h : CleanAt p s) {w : WatchId} {e : Watch}
    (ho : e.owner = .owned p → (s.watch w).owner = .owned p)
    (hs : e.subscribers.getLsbD p.val = true → (s.watch w).subscribers.getLsbD p.val = true) :
    CleanAt p (s.setWatch w e) := by
  refine h.of_tables rfl (fun x hx => ?_) (fun v hv => ?_)
  · cases x with
    | anchor a => exact hx
    | watch v =>
      simp only [State.ownerOf, watch_setWatch] at hx ⊢
      split at hx
      · next hv => exact hv ▸ ho hx
      · exact hx
    | channel k => exact hx
  · rw [watch_setWatch] at hv
    split at hv
    · next hw => exact hw ▸ hs hv
    · exact hv

theorem CleanAt.setChannel (h : CleanAt p s) {k : ChannelId} {e : Channel}
    (ho : e.owner = .owned p → (s.channel k).owner = .owned p) : CleanAt p (s.setChannel k e) := by
  refine h.of_tables rfl (fun x hx => ?_) (fun _ hw => hw)
  cases x with
  | anchor a => exact hx
  | watch w => exact hx
  | channel j =>
    simp only [State.ownerOf, channel_setChannel] at hx ⊢
    split at hx
    · next hj => exact hj ▸ ho hx
    · exact hx

theorem CleanAt.setPhase (h : CleanAt p s) (k : ChannelId) (m : Phase) : CleanAt p (s.setPhase k m) :=
  h.setChannel id

theorem CleanAt.triggerChannel (h : CleanAt p s) (k : ChannelId) : CleanAt p (s.triggerChannel k) :=
  h.setChannel (fun ho => trigger_owner (s.channel k) ▸ ho)

theorem CleanAt.triggerOnce (h : CleanAt p s) (sent : BitVec 4) (k : Option ChannelId) :
    CleanAt p (s.triggerOnce sent k).1 := by
  cases k with
  | none => exact h
  | some k =>
    rw [triggerOnce_some]
    split
    · exact h
    · exact h.triggerChannel k

/-! ### Changes of ports -/

/-- A change of port `q` that leaves it DETACHED only where it was, and clean where it was. -/
theorem CleanAt.modPort (h : CleanAt p s) (q : PortId) {g : Port → Port}
    (hg : (g (s.port q)).mode = .detached →
      (s.port q).mode = .detached ∧ ((s.port q).cleanDetached → (g (s.port q)).cleanDetached)) :
    CleanAt p (s.modPort q g) := by
  refine h.of_port (fun x => by cases x <;> rfl) (fun _ => rfl) ?_
  rw [port_modPort]
  split
  · next hq => exact hq ▸ hg
  · exact fun hm => ⟨hm, id⟩

/-- A change of what no DETACHED port is asked about. -/
theorem CleanAt.modPort_aside (h : CleanAt p s) (q : PortId) {g : Port → Port}
    (hm : (g (s.port q)).mode = (s.port q).mode)
    (hg : (s.port q).cleanDetached → (g (s.port q)).cleanDetached) : CleanAt p (s.modPort q g) :=
  h.modPort q (fun hd => ⟨hm ▸ hd, hg⟩)

/-- A change that leaves the port not DETACHED. -/
theorem CleanAt.modPort_awake (h : CleanAt p s) (q : PortId) {g : Port → Port}
    (hg : (g (s.port q)).mode ≠ .detached) : CleanAt p (s.modPort q g) :=
  h.modPort q (fun hd => absurd hd hg)

theorem arrive_mode_ne_detached {q : Port} (n : Nat) (h : q.mode ≠ .detached) : (q.arrive n).mode ≠ .detached := by
  unfold Port.arrive
  split
  · exact PortMode.noConfusion
  · exact h

/-- A post makes no port DETACHED. -/
theorem post_mode_ne_detached {q : Port} (n : Notice) (h : q.mode ≠ .detached) : (q.post n).mode ≠ .detached := by
  unfold Port.post
  split_ifs
  · exact h
  · exact arrive_mode_ne_detached _ h
  · exact arrive_mode_ne_detached _ h
  · exact h

theorem CleanAt.postTo (h : CleanAt p s) (set : BitVec 4) (n : Notice) : CleanAt p (s.postTo set n) := by
  refine h.of_port (fun x => by cases x <;> rfl) (fun _ => rfl) ?_
  rw [port_postTo]
  split
  · intro hm
    have hd : (s.port p).mode = .detached := by
      by_contra hd
      exact post_mode_ne_detached n hd hm
    rw [post_detached _ n hd]
    exact ⟨hd, id⟩
  · exact fun hm => ⟨hm, id⟩

theorem CleanAt.postLate (h : CleanAt p s) : CleanAt p s.postLate := by
  cases hl : s.lateNotice with
  | none => rwa [postLate_none hl]
  | some l =>
    rw [postLate_some hl]
    exact CleanAt.postTo h _ _

theorem CleanAt.postRunEnd (h : CleanAt p s) (post : RunEndPost) (set : BitVec 4) (n : Notice) :
    CleanAt p (s.postRunEnd post set n) := by
  cases post with
  | atOnce => exact h.postTo set n
  | afterNext => exact h.postLate

/-- A completion takes the request in flight from its port. -/
theorem CleanAt.complete (h : CleanAt p s) (q : PortId) (code : ResultCode) (data : List Byte) :
    CleanAt p (s.complete q code data) := by
  refine h.modPort_aside q rfl (fun hc hm => ?_)
  obtain ⟨hq, hn, ho, hs, ht, hw, hb, -⟩ := hc hm
  exact ⟨hq, hn, ho, hs, ht, hw, hb, .inl rfl⟩

theorem CleanAt.showPending (h : CleanAt p s) (q : PortId) (tag : Byte) : CleanAt p (s.showPending q tag) :=
  h.modPort_aside q rfl id

/-- Only an ATTACH comes into flight at a DETACHED port. -/
theorem CleanAt.setInFlight (h : CleanAt p s) (q : PortId) (r : InFlight)
    (hr : (s.port q).mode = .detached → r = .deferred .attach) : CleanAt p (s.setInFlight q r) := by
  refine h.modPort_aside q rfl (fun hc hm => ?_)
  obtain ⟨hq, hn, ho, hs, ht, hw, hb, -⟩ := hc hm
  exact ⟨hq, hn, ho, hs, ht, hw, hb, .inr (congrArg some (hr hm))⟩

/-- An UNBOUND cursor stays so. -/
theorem CleanAt.mapCursors (h : CleanAt p s) {g : Option Binding → Option Binding} (hg : g none = none) :
    CleanAt p (s.mapCursors g) := by
  refine h.of_port (fun x => by cases x <;> rfl) (fun _ => rfl) ?_
  rw [State.mapCursors, port_mapPorts]
  refine fun hm => ⟨hm, fun hc _ => ?_⟩
  obtain ⟨hq, hn, ho, hs, ht, hw, hb, hf⟩ := hc hm
  refine ⟨hq, hn, ho, hs, ht, hw, fun c => ?_, hf⟩
  have hcur : (s.port p).cursors[c.val] = none := hb c
  exact (tableMap_getElem g (s.port p).cursors c.val c.isLt).trans (hcur ▸ hg)

end Operations

/-! ### The copy engine -/

section Engine

variable {p : PortId} {s : State}

theorem discardLatch_owner (e : Channel) : e.discardLatch.owner = e.owner := by
  unfold Channel.discardLatch
  split <;> rfl

theorem rerun_owner (e : Channel) : e.rerun.owner = e.owner := by
  unfold Channel.rerun
  split <;> rfl

theorem CleanAt.channelReports (h : CleanAt p s) (post : RunEndPost) (k : ChannelId) {e : Channel} (kinds : Byte)
    (ho : e.owner = (s.channel k).owner) : CleanAt p (s.channelReports post k e kinds) :=
  (h.setChannel (fun h' => ho ▸ h')).postRunEnd _ _ _

theorem CleanAt.normalRunEnd (h : CleanAt p s) (post : RunEndPost) (k : ChannelId) :
    CleanAt p (s.normalRunEnd post k) := by
  unfold State.normalRunEnd
  dsimp only
  split
  · exact (h.channelReports _ k _ (by exact discardLatch_owner _)).setPhase k .idle
  · split
    · exact (h.channelReports _ k _ (by rfl)).setChannel (by exact fun h' => rerun_owner _ ▸ h')
    · exact (h.setChannel (by exact id)).setChannel (by exact fun h' => rerun_owner _ ▸ h')

theorem CleanAt.faultedRunEnd (h : CleanAt p s) (post : RunEndPost) (k : ChannelId) :
    CleanAt p (s.faultedRunEnd post k) := by
  unfold State.faultedRunEnd
  dsimp only
  split
  · exact (h.channelReports _ k _ (by exact discardLatch_owner _)).setPhase k .idle
  · exact (h.channelReports _ k _ (by exact discardLatch_owner _)).setPhase k .armed

theorem CleanAt.segmentCompletes (h : CleanAt p s) (k : ChannelId) (moved : Option Nat) (post : RunEndPost) :
    CleanAt p (s.segmentCompletes k moved post) := by
  cases moved with
  | none => exact h.faultedRunEnd post k
  | some size =>
    have ht : CleanAt p (s.setChannel k { s.channel k with copied := (s.channel k).copied + size }) :=
      h.setChannel id
    unfold State.segmentCompletes
    dsimp only
    split
    · exact ht
    · exact ht.normalRunEnd post k

theorem CleanAt.abort (h : CleanAt p s) (k : ChannelId) : CleanAt p (s.abort k) := by
  unfold State.abort
  dsimp only
  split
  · exact (h.channelReports _ k _ (by exact discardLatch_owner _)).setPhase k .idle
  · exact h.setPhase k .idle

theorem CleanAt.completeAccess (h : CleanAt p s) (post : RunEndPost) : CleanAt p (s.completeAccess post) := by
  unfold State.completeAccess
  split
  · exact h
  · exact (h.withGrant none).complete _ _ _
  · exact (h.withGrant none).segmentCompletes _ _ post

end Engine

/-! ### Watches: matching, blocking, ticks and lapses -/

section Matching

variable {p : PortId} {s : State}

/-- A change of a watch that leaves its owner and its subscribers. -/
theorem CleanAt.setWatch_aside (h : CleanAt p s) {w : WatchId} {e : Watch} (ho : e.owner = (s.watch w).owner)
    (hs : e.subscribers = (s.watch w).subscribers) : CleanAt p (s.setWatch w e) :=
  h.setWatch (fun h' => ho ▸ h') (fun h' => hs ▸ h')

theorem quietened_aside (e : Watch) (pr : Presentation) (m : Memory) :
    ((e.evaluate pr m).reload pr).owner = e.owner ∧ ((e.evaluate pr m).reload pr).subscribers = e.subscribers := by
  unfold Watch.reload Watch.evaluate
  split_ifs <;> exact ⟨rfl, rfl⟩

theorem CleanAt.matchWatch {acc : State × BitVec 4} (h : CleanAt p acc.1) (pr : Presentation) (w : WatchId) :
    CleanAt p (matchWatch pr acc w).1 := by
  obtain ⟨ho, hs⟩ := quietened_aside (acc.1.watch w) pr acc.1.array
  unfold Machine.matchWatch
  dsimp only
  split
  · exact h
  · generalize (if pr.touchesRange (acc.1.watch w).config then pr.kinds (acc.1.watch w) acc.1.array else 0) = kinds
    split
    · exact h.setWatch_aside ho hs
    · exact ((h.setWatch_aside (by exact ho) (by exact hs)).postTo _ _).triggerOnce _ _

theorem CleanAt.foldMatch (pr : Presentation) (ws : List WatchId) {acc : State × BitVec 4} (h : CleanAt p acc.1) :
    CleanAt p (ws.foldl (Machine.matchWatch pr) acc).1 := by
  induction ws generalizing acc with
  | nil => exact h
  | cons w ws ih => exact ih (h.matchWatch pr w)

theorem CleanAt.matchAll (h : CleanAt p s) (pr : Presentation) : CleanAt p (s.matchAll pr) :=
  CleanAt.foldMatch pr watchIds h

theorem CleanAt.block (h : CleanAt p s) (writer : Actor) (addrs : List Nat) (address size : Nat) (w : WatchId) :
    CleanAt p (s.block writer addrs address size w) := by
  unfold State.block
  dsimp only
  split
  · exact (h.setWatch_aside (by rfl) (by rfl)).postTo _ _
  · exact h

theorem CleanAt.blockAll (h : CleanAt p s) (writer : Actor) (addrs : List Nat) (address size : Nat) :
    CleanAt p (s.blockAll writer addrs address size) :=
  List.foldlRecOn watchIds _ h (fun _ ha w _ => CleanAt.block ha writer addrs address size w)

theorem CleanAt.countTick (h : CleanAt p s) : CleanAt p s.countTick := by
  have hw : ∀ w, s.countTick.watch w = (s.watch w).count := fun w => tableMap_getElem _ s.watches w.val w.isLt
  have hc : ∀ e : Watch, e.count.owner = e.owner ∧ e.count.subscribers = e.subscribers := by
    intro e
    unfold Watch.count
    split <;> exact ⟨rfl, rfl⟩
  refine h.of_port (fun x => ?_) (fun w => ?_) (fun hm => ⟨hm, id⟩)
  · cases x with
    | anchor a => rfl
    | watch w => exact (congrArg Watch.owner (hw w)).trans (hc _).1
    | channel k => rfl
  · rw [hw, (hc _).2]

theorem CleanAt.lapseOf (h : CleanAt p s) (w : WatchId) : CleanAt p (s.lapseOf w) := by
  have hw : CleanAt p (s.setWatch w ({ s.watch w with quiet := .lapsed, countdown := 0 } : Watch).hit) :=
    h.setWatch_aside rfl rfl
  exact (hw.postTo (s.watch w).subscribers (quietNotice w (s.watch w).config.priority)).triggerOnce s.tickTriggered
    (s.watch w).config.trigger

theorem CleanAt.finishLapses (h : CleanAt p s) : CleanAt p s.finishLapses :=
  List.foldlRecOn (motive := CleanAt p) s.lapsesDue _ h (fun _ ha w _ => CleanAt.lapseOf ha w)

theorem CleanAt.nextLapse (h : CleanAt p s) : CleanAt p s.nextLapse := by
  unfold State.nextLapse
  split
  · exact h
  · exact h.lapseOf _

end Matching

/-! ### Ports that are not DETACHED stay so -/

section Awake

variable {q : PortId} {s : State}

theorem postTo_awake (h : (s.port q).mode ≠ .detached) (set : BitVec 4) (n : Notice) :
    ((s.postTo set n).port q).mode ≠ .detached := by
  rw [port_postTo]
  split
  · exact post_mode_ne_detached n h
  · exact h

theorem matchAll_awake (h : (s.port q).mode ≠ .detached) (pr : Presentation) :
    ((s.matchAll pr).port q).mode ≠ .detached := by
  rw [(matchAll_spec s pr).2.2 q]
  refine List.foldlRecOn (motive := fun x : Port => x.mode ≠ .detached) watchIds _ h (fun x hx w _ => ?_)
  unfold Port.afterMatch
  split
  · exact post_mode_ne_detached _ hx
  · exact hx

theorem blockAll_awake (h : (s.port q).mode ≠ .detached) (writer : Actor) (addrs : List Nat) (address size : Nat) :
    ((s.blockAll writer addrs address size).port q).mode ≠ .detached := by
  rw [(blockAll_spec s writer addrs address size).2.2 q]
  refine List.foldlRecOn (motive := fun x : Port => x.mode ≠ .detached) watchIds _ h (fun x hx w _ => ?_)
  split
  · exact post_mode_ne_detached _ hx
  · exact hx

theorem storeMotion_awake (h : (s.port q).mode ≠ .detached) (motion : Option (CursorId × Nat)) :
    ((s.storeMotion q motion).port q).mode ≠ .detached := by
  cases motion with
  | none => exact h
  | some m =>
    rw [storeMotion_port]
    exact h

theorem reportNullRef_awake (h : (s.port q).mode ≠ .detached) (r : MemoryRequest) :
    ((s.reportNullRef q r).port q).mode ≠ .detached := by
  unfold State.reportNullRef
  split
  · split
    · split
      · exact h
      · exact postTo_awake h _ _
    · exact h
    · exact h
  · exact h
  · exact h

end Awake

/-! ### Grants -/

section Grants

variable {p q : PortId} {s : State}

theorem CleanAt.holdArray (h : CleanAt p s) (hq : (s.port q).mode ≠ .detached) (code : ResultCode)
    (data : List Byte) : CleanAt p (s.holdArray q code data) :=
  CleanAt.setInFlight h q .granted (fun hm => absurd hm hq)

theorem CleanAt.storeMotion (h : CleanAt p s) (hq : (s.port q).mode ≠ .detached) (motion : Option (CursorId × Nat)) :
    CleanAt p (s.storeMotion q motion) := by
  cases motion with
  | none => exact h
  | some m => exact h.modPort_awake q hq

theorem CleanAt.reportNullRef (h : CleanAt p s) (r : MemoryRequest) : CleanAt p (s.reportNullRef q r) := by
  unfold State.reportNullRef
  split
  · split
    · split
      · exact h
      · exact h.postTo _ _
    · exact h
    · exact h
  · exact h
  · exact h

/-- The motion, the matching and the hold of the array that a performance ends with (R16). -/
theorem CleanAt.performed (h : CleanAt p s) (hq : (s.port q).mode ≠ .detached) (motion : Option (CursorId × Nat))
    (pr : Presentation) (code : ResultCode) (data : List Byte) :
    CleanAt p (((s.storeMotion q motion).matchAll pr).holdArray q code data) :=
  ((h.storeMotion hq motion).matchAll pr).holdArray (matchAll_awake (storeMotion_awake hq motion) pr) code data

theorem CleanAt.accessAt (h : CleanAt p s) (hq : (s.port q).mode ≠ .detached) (op : MemoryOp) (place : Place) :
    CleanAt p (s.accessAt q op place) := by
  unfold State.accessAt
  split
  · exact h.holdArray hq _ _
  · split
    · exact (h.blockAll _ _ _ _).holdArray (blockAll_awake hq _ _ _ _) _ _
    · exact (h.withArray (op.perform s.array place.addrs).array).performed hq place.motion _ _ _

theorem CleanAt.beginAccess {t : State} (h : CleanAt p s) (hq : (s.port q).mode ≠ .detached) {r : MemoryRequest}
    (ht : beginAccess q r s = .next t) : CleanAt p t := by
  unfold Machine.beginAccess at ht
  split at ht
  · cases ht
    split
    · exact (h.reportNullRef r).holdArray (reportNullRef_awake hq r) _ _
    · exact h.holdArray hq _ _
  · split at ht
    · cases ht
      exact h.accessAt hq _ _
    · cases ht

theorem CleanAt.segmentAt (h : CleanAt p s) (k : ChannelId) : CleanAt p (s.segmentAt k) := by
  unfold State.segmentAt
  dsimp only
  split
  · exact h
  · split
    · exact (h.blockAll _ _ _ _).withGrant _
    · exact (((h.withArray _).matchAll _).matchAll _).withGrant _

theorem CleanAt.beginSegment {t : State} (h : CleanAt p s) {k : ChannelId} (ht : beginSegment k s = .next t) :
    CleanAt p t := by
  unfold Machine.beginSegment at ht
  dsimp only at ht
  split at ht
  · cases ht
    exact (h.withEnginePointer _).segmentAt k
  · cases ht

end Grants

/-! ### Requests -/

section Requests

variable {p q : PortId} {s t : State}

theorem CleanAt.leaveSets (h : CleanAt p s) (q : PortId) : CleanAt p (s.leaveSets q) := by
  refine h.of_tables rfl (fun x hx => ?_) (fun w hw => ?_)
  · cases x with
    | anchor a => exact hx
    | watch w => exact (congrArg Watch.owner (watch_leaveSets s q w)).symm.trans hx
    | channel k => exact (congrArg Channel.owner (channel_leaveSets s q k)).symm.trans hx
  · rw [watch_leaveSets, Watch.leave, Machine.without, BitVec.getLsbD_and, Bool.and_eq_true] at hw
    exact hw.1

theorem CleanAt.setMode_awake (h : CleanAt p s) (q : PortId) {m : PortMode} (hm : m ≠ .detached) :
    CleanAt p (s.setMode q m) :=
  h.modPort_awake q hm

/-- The entry and the subscriptions that a port reset of `q` leaves (R51). -/
theorem ownerOf_portReset (s : State) (q : PortId) (x : Entry) :
    (s.portReset q).ownerOf x = (s.ownerOf x).orphan q := by
  cases x with
  | anchor a => exact congrArg Anchor.owner (tableMap_getElem (Anchor.orphan q) s.anchors a.val a.isLt)
  | watch w => exact congrArg Watch.owner (tableMap_getElem (Watch.orphan q) s.watches w.val w.isLt)
  | channel k => exact congrArg Channel.owner (tableMap_getElem (Channel.orphan q) s.channels k.val k.isLt)

theorem subscribers_portReset (s : State) (q : PortId) (w : WatchId) :
    ((s.portReset q).watch w).subscribers = Machine.without q (s.watch w).subscribers :=
  congrArg Watch.subscribers (tableMap_getElem (Watch.orphan q) s.watches w.val w.isLt)

theorem port_portReset (s : State) (q : PortId) : (s.portReset q).port p = (s.modPort q Port.reset).port p := rfl

theorem orphan_eq_owned {o : Owner} (h : o.orphan q = .owned p) : o = .owned p ∧ p ≠ q := by
  unfold Owner.orphan at h
  split at h
  · cases h
  · next ho => exact ⟨h, fun e => ho (e ▸ h)⟩

theorem getLsbD_without {set : BitVec 4} :
    (Machine.without q set).getLsbD p.val = (set.getLsbD p.val && decide (p ≠ q)) := by
  revert set p q
  decide

/-- At another port a port reset of `q` leaves everything but what `q` had. -/
theorem CleanAt.portReset_other (h : CleanAt p s) (hpq : p ≠ q) : CleanAt p (s.portReset q) := by
  refine h.of_tables ?_ (fun x hx => ?_) (fun w hw => ?_)
  · rw [port_portReset, port_modPort_other _ _ hpq.symm]
  · rw [ownerOf_portReset] at hx
    exact (orphan_eq_owned hx).1
  · rw [subscribers_portReset, getLsbD_without, Bool.and_eq_true] at hw
    exact hw.1

/-- The port itself, once its port reset, its new state and its completion are done (R142, R143, R161). -/
theorem cleanAt_reset_complete (s : State) (q : PortId) (m : PortMode) (kind : Byte) (code : ResultCode)
    (data : List Byte) : CleanAt q ((((s.portReset q).setMode q m).announce q kind).complete q code data) := by
  have hport : ((((s.portReset q).setMode q m).announce q kind).complete q code data).port q =
      { ({ (s.port q).reset with mode := m } : Port).drive with
        slot := ⟨(s.port q).slot.tag, code, data⟩
        inFlight := none } := by
    have hbit : (~~~(single q.val) : BitVec 4).getLsbD q.val = false := by
      revert q
      decide
    rw [State.complete, port_modPort_same, State.announce, port_postTo, hbit, if_neg Bool.false_ne_true,
      State.setMode, port_modPort_same, port_portReset, port_modPort_same]
    rfl
  have hown : ∀ x, (((((s.portReset q).setMode q m).announce q kind).complete q code data).ownerOf x) =
      (s.portReset q).ownerOf x := fun x => by cases x <;> rfl
  refine ⟨?_, fun _ => ⟨fun x hx => ?_, fun w => ?_⟩⟩
  · rw [hport]
    exact fun _ => ⟨rfl, rfl, rfl, rfl, rfl, rfl, fun c => by fin_cases c <;> rfl, .inl rfl⟩
  · rw [hown, ownerOf_portReset] at hx
    exact (orphan_eq_owned hx).2 rfl
  · rw [watch_complete_frame, State.announce, watch_postTo_frame, watch_setMode_frame, subscribers_portReset,
      getLsbD_without]
    simp

/-- A port reset, the new state and the notices, completed (R141, R142). -/
theorem CleanAt.reset_complete (h : CleanAt p s) (q : PortId) (m : PortMode) (kind : Byte) (code : ResultCode)
    (data : List Byte) : CleanAt p ((((s.portReset q).setMode q m).announce q kind).complete q code data) := by
  by_cases hpq : p = q
  · subst hpq
    exact cleanAt_reset_complete s p m kind code data
  · have hm : CleanAt p ((s.portReset q).setMode q m) := by
      refine (h.portReset_other hpq).of_port (fun x => by cases x <;> rfl) (fun _ => rfl) ?_
      rw [State.setMode, port_modPort_other _ _ (Ne.symm hpq)]
      exact fun hd => ⟨hd, id⟩
    exact CleanAt.complete (hm.postTo _ _) q code data

/-- What a request of a port that is not DETACHED leaves, completed. -/
theorem CleanAt.effect_complete (h : CleanAt p s) (he : Effect q s t) (hq : (s.port q).mode ≠ .detached)
    (code : ResultCode) (data : List Byte) : CleanAt p (t.complete q code data) := by
  cases he with
  | none => exact h.complete q code data
  | port g hg => exact (h.modPort_awake q (hg hq)).complete q code data
  | own x =>
    by_cases hpq : p = q
    · subst hpq
      refine CleanAt.complete (cleanAt_of_awake ?_) p code data
      cases x <;> exact hq
    · have hne : (Owner.owned q) ≠ .owned p := fun e => hpq (Owner.owned.inj e).symm
      refine CleanAt.complete ?_ q code data
      cases x with
      | anchor a => exact h.setAnchor (fun e => absurd e hne)
      | watch w => exact h.setWatch (fun e => absurd e hne) id
      | channel k => exact h.setChannel (fun e => absurd e hne)
  | anchor a e g ho hg =>
    refine CleanAt.complete (CleanAt.mapCursors (h.setAnchor (fun hp => ?_)) hg) q code data
    exact ho.elim (fun ho => ho ▸ hp) (fun ho => Owner.noConfusion (ho.symm.trans hp))
  | watch w e ho hs =>
    by_cases hpq : p = q
    · subst hpq
      exact CleanAt.complete (cleanAt_of_awake (s := s.setWatch w e) hq) p code data
    · refine CleanAt.complete (h.setWatch (fun hp => ?_) (hs p hpq)) q code data
      exact ho.elim (fun ho => ho ▸ hp) (fun ho => Owner.noConfusion (ho.symm.trans hp))
  | channel k e ho =>
    refine CleanAt.complete (h.setChannel (fun hp => ?_)) q code data
    exact ho.elim (fun ho => ho ▸ hp) (fun ho => Owner.noConfusion (ho.symm.trans hp))
  | abort k => exact (h.abort k).complete q code data
  | attach hm => exact absurd hm hq
  | reset m kind => exact h.reset_complete q m kind code data

/-- A request applied and completed, where only an ATTACH is applied for a DETACHED port (R139). -/
theorem CleanAt.applyAndComplete (h : CleanAt p s) {r : Request} (hr : (s.port q).mode = .detached → r = .attach) :
    CleanAt p (s.applyAndComplete q r) := by
  by_cases hm : (s.port q).mode = .detached
  · have ha : applyRequest q r s = .done (((s.leaveSets q).setMode q .attached).announce q kindAttached) := by
      rw [hr hm]
      exact if_pos hm
    unfold State.applyAndComplete
    rw [ha]
    exact CleanAt.complete (((h.leaveSets q).setMode_awake q PortMode.noConfusion).postTo _ _) q _ _
  · exact h.effect_complete (applyRequest_effect q s r) hm _ _

end Requests

/-! ### What is due before a command -/

/-- Every port is clean. -/
def Clean (s : State) : Prop := ∀ p, CleanAt p s

section Due

variable {s : State}

/-- The request in flight at a DETACHED port is an ATTACH (R140). -/
theorem Clean.inFlight (h : Clean s) {p : PortId} (hm : (s.port p).mode = .detached) {r : InFlight}
    (hr : (s.port p).inFlight = some r) : r = .deferred .attach := by
  obtain ⟨-, -, -, -, -, -, -, hf⟩ := (h p).1 hm
  obtain hf | hf := hf
  · rw [hr] at hf
    cases hf
  · exact Option.some.inj (hr.symm.trans hf)

theorem Clean.applyDeferred (h : Clean s) (p : PortId) : Clean (s.applyDeferred p) := by
  unfold State.applyDeferred
  split
  · next r hr => exact fun q => (h q).applyAndComplete (fun hm => InFlight.deferred.inj (h.inFlight hm hr))
  · next k hk => exact fun q => (h q).applyAndComplete (fun hm => InFlight.noConfusion (h.inFlight hm hk))
  · exact h

theorem Clean.applyWaiting (h : Clean s) (d : Deferred) : Clean (s.applyWaiting d) := by
  cases d with
  | request p => exact h.applyDeferred p
  | tick => exact fun p => (h p).countTick.finishLapses

theorem Clean.foldWaiting (h : Clean s) (ds : List Deferred) : Clean (ds.foldl State.applyWaiting s) :=
  List.foldlRecOn ds _ h (fun _ ht d _ => Clean.applyWaiting ht d)

theorem Clean.applyDeferredUpTo (h : Clean s) (p : PortId) : Clean (s.applyDeferredUpTo p) :=
  Clean.applyDeferred (Clean.foldWaiting (fun q => (h q).withDeferredOrder _) _) p

theorem Clean.applyDeferredFirst (h : Clean s) (p : PortId) : Clean (s.applyDeferredFirst p) :=
  Clean.applyDeferred (fun q => (h q).withDeferredOrder _) p

theorem Clean.afterCompletion (h : Clean s) : Clean s.afterCompletion := by
  unfold State.afterCompletion
  split
  · exact h
  · exact Clean.foldWaiting (fun p => (h p).withDeferredOrder _) s.deferredOrder

theorem Clean.clearWay (h : Clean s) : Clean s.clearWay := Clean.afterCompletion (fun p => (h p).finishLapses)

theorem Clean.settle (h : Clean s) : Clean s.settle := Clean.afterCompletion (fun p => (h p).finishLapses.postLate)

theorem Clean.completeAccess (h : Clean s) (post : RunEndPost) : Clean (s.completeAccess post) :=
  fun p => (h p).completeAccess post

end Due

/-! ### Frames -/

section Frames

variable {s : State}

theorem Clean.wakePort (h : Clean s) (p : PortId) : Clean (s.wakePort p) := by
  unfold State.wakePort
  split
  · exact fun q => (h q).setMode_awake p PortMode.noConfusion
  · exact h

theorem Clean.startFrame (h : Clean s) (p : PortId) : Clean (s.startFrame p) :=
  Clean.wakePort (fun q => (h q).modPort_aside p rfl id) p

theorem Clean.openFrame (h : Clean s) (p : PortId) : Clean (s.openFrame p) := by
  unfold State.openFrame
  split
  · exact h.wakePort p
  · exact h.startFrame p

theorem Clean.closeFrame (h : Clean s) (p : PortId) (bits : Nat) : Clean (s.closeFrame p bits) :=
  fun q => (h q).modPort_aside p rfl id

theorem Clean.darkFrame (h : Clean s) (p : PortId) (f : Option OpenFrame) : Clean (s.darkFrame p f) :=
  fun q => (h q).modPort_aside p rfl id

theorem Clean.answerNow (h : Clean s) (p : PortId) (tag : Byte) (code : ResultCode) : Clean (s.answerNow p tag code) :=
  fun q => ((h q).showPending p tag).complete p code []

/-- A request is taken on a DETACHED port only where it is an ATTACH (R156, check 7). -/
theorem kind_of_taken {q : Port} {bits : Nat} {fits : Bool} {kind : FrameKind}
    (hv : q.verdict bits fits kind = .taken) (hm : q.mode = .detached) : kind = .attach := by
  by_contra hk
  unfold Port.verdict at hv
  split at hv
  · cases hv
  · rw [if_pos (show q.mode = .detached ∧ kind ≠ .attach from ⟨hm, hk⟩)] at hv
    split_ifs at hv

theorem Clean.decide (h : Clean s) (p : PortId) (tag : Byte) (v : Verdict) {take : State → State}
    (ht : v = .taken → Clean (take s)) : Clean (s.decide p tag v take) := by
  cases v with
  | notReady => exact h
  | empty => exact h
  | lengthFault => exact fun q => (h q).modPort_aside p rfl id
  | nop => exact h
  | busy => exact fun q => (h q).modPort_aside p rfl id
  | unknownCode => exact h.answerNow p tag _
  | notAttached => exact h.answerNow p tag _
  | taken => exact ht rfl

/-- A frame end, where what takes its request keeps every port clean on a port that is not DETACHED, and on every port
if the frame is an ATTACH. -/
theorem Clean.frameEnd (h : Clean s) {t : State} {p : PortId} {bits : Nat} {tag : Byte} {fits : Bool} {kind : FrameKind}
    {take : State → State}
    (ht : ∀ u : State, Clean u → ((u.port p).mode = .detached → kind = .attach) → Clean (take u))
    (he : frameEnd p bits tag fits kind take s = .next t) : Clean t := by
  unfold Machine.frameEnd at he
  cases he
  split
  · have ho : Clean (s.settle.openFrame p) := h.settle.openFrame p
    refine Clean.decide (ho.closeFrame p bits) p tag _ (fun hv => ht _ (ho.closeFrame p bits) (fun hm => ?_))
    refine kind_of_taken hv ?_
    rwa [State.closeFrame, port_modPort_same] at hm
  · exact h.darkFrame p none

theorem Clean.takeRequest (h : Clean s) {p : PortId} {r : Request} (hr : (s.port p).mode = .detached → r = .attach)
    (tag : Byte) : Clean (s.takeRequest p tag r) := by
  have hp : Clean (s.showPending p tag) := fun q => (h q).showPending p tag
  have hm : ((s.showPending p tag).port p).mode = (s.port p).mode := by rw [State.showPending, port_modPort_same]
  unfold State.takeRequest
  split
  · exact fun q => (hp q).applyAndComplete (hm ▸ hr)
  · next g _ =>
    refine fun q => CleanAt.setInFlight (hp q) p (deferral g r) (fun hd => ?_)
    rw [hr (hm ▸ hd)]
    cases g <;> rfl

theorem Clean.takeMemory (h : Clean s) {p : PortId} (hp : (s.port p).mode ≠ .detached) (tag : Byte)
    (r : Except ResultCode MemoryRequest) : Clean (s.takeMemory p tag r) := by
  cases r with
  | error code => exact h.answerNow p tag code
  | ok r =>
    refine fun q => CleanAt.setInFlight ((h q).showPending p tag) p _ (fun hd => ?_)
    rw [State.showPending, port_modPort_same] at hd
    exact absurd hd hp

theorem Clean.requestFrame (h : Clean s) {t : State} {f : Frame} {code : Byte} {r : Request}
    (he : requestFrame f code (kindOf r) r s = .next t) : Clean t :=
  h.frameEnd (fun _ hu hk => hu.takeRequest (fun hm => (kindOf_eq_attach_iff r).mp (hk hm)) f.tag) he

theorem Clean.memoryFrame (h : Clean s) {t : State} {f : Frame} {fits : Bool} {target : TargetBytes}
    {op : Option MemoryOp} (he : memoryFrame f fits target op s = .next t) : Clean t :=
  h.frameEnd (fun _ hu hk => hu.takeMemory (fun hm => FrameKind.noConfusion (hk hm)) f.tag _) he

theorem Clean.untakenFrame (h : Clean s) {t : State} {p : PortId} {bits : Nat} {tag : Byte} {fits : Bool}
    {kind : FrameKind} (he : Machine.frameEnd p bits tag fits kind id s = .next t) : Clean t :=
  h.frameEnd (fun _ hu _ => hu) he

end Frames

/-! ### Grants as commands -/

section GrantCommands

variable {s t : State}

/-- A port whose request waits for a grant is not DETACHED (R140). -/
theorem Clean.memoryChoice (h : Clean s) {p : PortId} {r : MemoryRequest} (hc : s.memoryChoice = some (p, r)) :
    (s.port p).mode ≠ .detached := by
  intro hm
  unfold State.memoryChoice at hc
  split at hc
  · cases hc
  · split at hc
    · split at hc
      · next hw =>
        cases hc
        exact InFlight.noConfusion (h.inFlight hm hw)
      · cases hc
    · cases hc

theorem Clean.andThen {x : Host.Outcome State Fault Refusal} {g : State → State}
    (hx : ∀ u, x = .next u → Clean (g u)) (he : andThen x g = .next t) : Clean t := by
  cases x with
  | next u =>
    cases he
    exact hx u rfl
  | fault r => cases he
  | refused r => cases he

theorem Clean.grantMemory (h : Clean s) {after : State → State} (ha : ∀ u, Clean u → Clean (after u))
    (he : grantMemory after s = .next t) : Clean t := by
  unfold Machine.grantMemory at he
  split at he
  · cases he
    exact fun p => (h p).postLate
  · next q r hc =>
    refine Clean.andThen (fun u hu => ha _ (fun p => CleanAt.postLate ?_)) he
    exact ((h p).advancePointer _).beginAccess (h.memoryChoice hc) hu

theorem Clean.grantSegment (h : Clean s) {after : State → State} (ha : ∀ u, Clean u → Clean (after u))
    (he : grantSegment after s = .next t) : Clean t := by
  unfold Machine.grantSegment at he
  split at he
  · cases he
    exact fun p => (h p).postLate
  · refine Clean.andThen (fun u hu => ha _ (fun p => CleanAt.postLate ?_)) he
    exact ((h p).advancePointer _).beginSegment hu

theorem Clean.memoryGrant (h : Clean s) {span : GrantSpan} (he : execMemoryGrant span s = .next t) : Clean t := by
  cases span with
  | whole => exact h.clearWay.grantMemory (fun _ hu => hu.completeAccess _) he
  | begins => exact h.clearWay.grantMemory (fun _ hu => hu) he
  | ends =>
    cases he
    unfold State.endMemory
    split
    · exact h.settle.completeAccess _
    · exact h.settle

theorem Clean.segmentGrant (h : Clean s) {span : SegmentSpan} (he : execSegmentGrant span s = .next t) : Clean t := by
  cases span with
  | whole post => exact h.clearWay.grantSegment (fun _ hu => hu.completeAccess _) he
  | begins => exact h.clearWay.grantSegment (fun _ hu => hu) he
  | ends post =>
    cases he
    unfold State.endSegment
    split
    · exact h.settle.completeAccess _
    · exact h.settle

theorem Clean.deferredRequestApply (h : Clean s) {p : PortId} (he : execDeferredRequestApply p s = .next t) :
    Clean t := by
  unfold execDeferredRequestApply at he
  split at he
  · cases he
    exact Clean.applyDeferredUpTo (fun q => (h q).finishLapses.completeAccess _) p
  · cases he
    exact h.settle

theorem Clean.abortAfterSegment (h : Clean s) {p : PortId} (he : execAbortAfterSegment p s = .next t) : Clean t := by
  unfold execAbortAfterSegment at he
  split at he
  · cases he
    exact Clean.applyDeferredFirst (fun q => (h q).finishLapses.completeAccess _) p
  · cases he
    exact h.settle

theorem Clean.tick (h : Clean s) (he : execTick s = .next t) : Clean t := by
  unfold execTick at he
  cases he
  split
  · exact h.settle
  · split
    · exact h.settle
    · exact fun p => (h.settle p).countTick

theorem Clean.lapse (h : Clean s) (he : execLapse s = .next t) : Clean t := by
  unfold execLapse at he
  cases he
  split
  · exact h.settle
  · exact fun p => (h p).nextLapse

end GrantCommands

/-! ### Power and device reset -/

section Device

variable {s t : State}

/-- Tables at their power-on values have no owner and no subscriber, and a port's power-on values are clean. -/
theorem clean_of_reset (ha : t.anchors = State.reset.anchors) (hw : t.watches = State.reset.watches)
    (hk : t.channels = State.reset.channels)
    (hp : ∀ p, ∃ f o, t.port p = { Port.default with frame := f, shifted := o }) : Clean t := by
  have hanchor : ∀ a, t.anchor a = Anchor.default := fun a => by simp [State.anchor, ha, State.reset]
  have hwatch : ∀ w, t.watch w = Watch.default := fun w => by simp [State.watch, hw, State.reset]
  have hchannel : ∀ k, t.channel k = Channel.default := fun k => by simp [State.channel, hk, State.reset]
  intro p
  obtain ⟨f, o, hq⟩ := hp p
  refine ⟨?_, fun _ => ⟨fun x => ?_, fun w => ?_⟩⟩
  · rw [hq]
    exact fun _ => ⟨rfl, rfl, rfl, rfl, rfl, rfl, fun c => by fin_cases c <;> rfl, .inl rfl⟩
  · cases x with
    | anchor a => simp [State.ownerOf, hanchor, Anchor.default]
    | watch w => simp [State.ownerOf, hwatch, Watch.default]
    | channel k => simp [State.ownerOf, hchannel, Channel.default]
  · simp [hwatch, Watch.default]

theorem clean_powerOn (s : State) : Clean s.powerOn :=
  clean_of_reset rfl rfl rfl (fun p => ⟨_, _, tableMap_getElem Port.powerOn s.ports p.val p.isLt⟩)

theorem clean_deviceReset (s : State) : Clean s.deviceReset :=
  clean_of_reset rfl rfl rfl (fun p => ⟨_, _, tableMap_getElem Port.deviceReset s.ports p.val p.isLt⟩)

theorem Clean.fillEnd (h : Clean s) (he : execFillEnd s = .next t) : Clean t := by
  unfold execFillEnd at he
  cases he
  split <;> exact h

theorem Clean.nresetAssertion (h : Clean s) (he : execNresetAssertion s = .next t) : Clean t := by
  unfold execNresetAssertion at he
  cases he
  split
  · exact h
  · split
    · exact clean_deviceReset s
    · exact h

theorem Clean.nresetRelease (h : Clean s) (he : execNresetRelease s = .next t) : Clean t := by
  unfold execNresetRelease at he
  cases he
  split
  · exact h
  · split
    · exact h
    · split <;> exact h

end Device

/-! ### Every command -/

theorem Clean.frameStart {s t : State} (h : Clean s) {p : PortId} (he : execFrameStart p s = .next t) : Clean t := by
  unfold execFrameStart at he
  cases he
  split
  · exact h.settle.startFrame p
  · exact h.darkFrame p _

theorem Clean.exec {s t : State} (h : Clean s) {i : Instr} (he : exec i s = .next t) : Clean t := by
  cases hr : requestOf i with
  | some x =>
    obtain ⟨f, code, r⟩ := x
    exact h.requestFrame ((exec_of_requestOf hr s).symm.trans he)
  | none =>
    cases i
    case powerOnReset =>
      cases he
      exact clean_powerOn s
    case fillEnd => exact h.fillEnd he
    case nresetAssertion => exact h.nresetAssertion he
    case nresetRelease => exact h.nresetRelease he
    case frameStart p => exact h.frameStart he
    case emptyFrame p => exact h.untakenFrame he
    case nop p bits => exact h.untakenFrame he
    case unknownCode f code => exact h.untakenFrame he
    case read f target size => exact h.memoryFrame he
    case write f target size data => exact h.memoryFrame he
    case exchange f target width expected new => exact h.memoryFrame he
    case fetchAdd f target width addend => exact h.memoryFrame he
    case memoryGrant span => exact h.memoryGrant he
    case segmentGrant span => exact h.segmentGrant he
    case abortAfterSegment p => exact h.abortAfterSegment he
    case deferredRequestApply p => exact h.deferredRequestApply he
    case tick => exact h.tick he
    case lapse => exact h.lapse he
    case supplyLoss =>
      cases he
      exact clean_powerOn s
    all_goals cases hr

/-- Settles O59: every command keeps it, and a step is a command on a state with a shorter queue. -/
theorem detachedPortsStayClean : Obligations.DetachedPortsStayClean := by
  intro s t hs he
  have h : Clean s := (detachedClean_iff s).mp hs
  refine (detachedClean_iff t).mpr ?_
  unfold step at he
  split at he
  · cases he
    exact h
  · exact Clean.exec (fun p => (h p).withPending _) he

end Sys2Proof.DetachedPorts
end

section
/-! SUPPORT. Entry ownership (chapter 3): the entry that a table and an index name, one equation for each ownership
request on it, the bytes of an entry, and the three statements about them. -/

namespace Sys2Proof.EntryOwnership

open Sys2Proof Sys2Proof.Machine Sys2Proof.Claims Sys2Proof.AnchorsAndCursors

/-! ### What table and index name (R43) -/

theorem entry?_named (x : Entry) : entry? (tableByte x) (indexByte x) = some x := by
  cases x with
  | anchor a => exact congrArg (Option.map Entry.anchor) (index?_ofNat (by decide) a)
  | watch w => exact congrArg (Option.map Entry.watch) (index?_ofNat (by decide) w)
  | channel k => exact congrArg (Option.map Entry.channel) (index?_ofNat (by decide) k)

theorem entry?_eq_none {table index : Byte} (h : namesNone table index) : entry? table index = none := by
  unfold entry?
  obtain ht | ⟨ht, hi⟩ | ⟨ht, hi⟩ | ⟨ht, hi⟩ := h
  · rw [if_neg (by bv_omega), if_neg (by bv_omega), if_neg (by bv_omega)]
  · rw [if_pos (by bv_omega), index?_eq_none hi]
    rfl
  · rw [if_neg (by bv_omega), if_pos (by bv_omega), index?_eq_none hi]
    rfl
  · rw [if_neg (by bv_omega), if_neg (by bv_omega), if_pos (by bv_omega), index?_eq_none hi]
    rfl

/-! ### The requests on an entry, and on none -/

section OnEntry

variable {p : PortId} {s : State} {x : Entry} {table index : Byte}

theorem applyClaim_free (h : s.ownerOf x = .free) :
    applyClaim p (tableByte x) (indexByte x) s = .done (s.setOwner x (.owned p)) := by
  simp only [applyClaim, entry?_named, h, if_true]

theorem applyClaim_taken (h : s.ownerOf x ≠ .free) :
    applyClaim p (tableByte x) (indexByte x) s = .answer s .entryTaken := by
  simp only [applyClaim, entry?_named, if_neg h]

theorem applyAdopt_orphaned (h : s.ownerOf x = .orphaned) :
    applyAdopt p (tableByte x) (indexByte x) s = .done (s.setOwner x (.owned p)) := by
  simp only [applyAdopt, entry?_named, h, if_true]

theorem applyAdopt_notOrphaned (h : s.ownerOf x ≠ .orphaned) :
    applyAdopt p (tableByte x) (indexByte x) s = .answer s .notOrphaned := by
  simp only [applyAdopt, entry?_named, if_neg h]

theorem applyRelease_notOwner (h : s.ownerOf x ≠ .owned p) :
    applyRelease p (tableByte x) (indexByte x) s = .answer s .notOwner := by
  simp only [applyRelease, entry?_named, if_pos h]

theorem applyRelease_busy (h : s.ownerOf x = .owned p) (hb : s.busyEntry x = true) :
    applyRelease p (tableByte x) (indexByte x) s = .answer s .channelBusy := by
  simp only [applyRelease, entry?_named, if_neg (not_not_intro h), if_pos hb]

theorem applyRelease_released (h : s.ownerOf x = .owned p) (hb : s.busyEntry x = false) :
    applyRelease p (tableByte x) (indexByte x) s = .done (s.releaseEntry x) := by
  simp only [applyRelease, entry?_named, if_neg (not_not_intro h), hb, Bool.false_eq_true, if_false]

theorem applyQueryEntry_reports :
    applyQueryEntry p (tableByte x) (indexByte x) s = .report s (s.entryBytes x) := by
  simp only [applyQueryEntry, entry?_named]

theorem applyClaim_badParameter (h : namesNone table index) : applyClaim p table index s = .answer s .badParameter := by
  simp only [applyClaim, entry?_eq_none h]

theorem applyAdopt_badParameter (h : namesNone table index) : applyAdopt p table index s = .answer s .badParameter := by
  simp only [applyAdopt, entry?_eq_none h]

theorem applyRelease_badParameter (h : namesNone table index) :
    applyRelease p table index s = .answer s .badParameter := by
  simp only [applyRelease, entry?_eq_none h]

theorem applyQueryEntry_badParameter (h : namesNone table index) :
    applyQueryEntry p table index s = .answer s .badParameter := by
  simp only [applyQueryEntry, entry?_eq_none h]

end OnEntry

/-! ### At the frame end -/

section AtFrameEnd

variable {s : State} {f : Frame} {code : Byte} {r : Request}

theorem taken_ownerOf (s : State) (f : Frame) (x : Entry) : (s.taken f).ownerOf x = s.ownerOf x := by
  cases x <;> rfl

theorem taken_entryBytes (s : State) (f : Frame) (x : Entry) : (s.taken f).entryBytes x = s.entryBytes x := by
  cases x <;> rfl

theorem taken_busyEntry (s : State) (f : Frame) (x : Entry) : (s.taken f).busyEntry x = s.busyEntry x := by
  cases x <;> rfl

/-- An owner field set, completed. -/
theorem complete_setOwner_taken (s : State) (f : Frame) (x : Entry) (o : Owner) (c : ResultCode) (d : List Byte) :
    ((s.taken f).setOwner x o).complete f.port c d = (s.setOwner x o).answered f c d := by
  cases x with
  | anchor a => exact complete_setAnchor_taken s f a _ c d
  | watch w => exact complete_setWatch_taken s f w _ c d
  | channel k => exact complete_setChannel_taken s f k _ c d

/-- An entry released, completed. -/
theorem complete_releaseEntry_taken (s : State) (f : Frame) (x : Entry) (c : ResultCode) (d : List Byte) :
    ((s.taken f).releaseEntry x).complete f.port c d = (s.releaseEntry x).answered f c d := by
  cases x with
  | anchor a => exact complete_setAnchor_mapCursors_taken s f a _ _ c d
  | watch w => exact complete_setWatch_taken s f w _ c d
  | channel k => exact complete_setChannel_taken s f k _ c d

/-- An ownership request without effect: its frame is of four bytes (Table 9-2). -/
theorem ownershipFrame_answers {c : ResultCode} {d : List Byte} (h : s.serves f.port) (hb : f.bits = 8 * 4)
    (he : expectedLength code 0 = some 4) (hx : applyRequest f.port r (s.taken f) = ⟨s.taken f, c, d⟩) :
    requestFrame f code .request r s = .next (s.answered f c d) :=
  requestFrame_no_effect h hb he FrameKind.noConfusion FrameKind.noConfusion hx

theorem ownershipFrame_setsOwner {x : Entry} {o : Owner} (h : s.serves f.port) (hb : f.bits = 8 * 4)
    (he : expectedLength code 0 = some 4)
    (hx : applyRequest f.port r (s.taken f) = .done ((s.taken f).setOwner x o)) :
    requestFrame f code .request r s = .next ((s.setOwner x o).answered f .done []) := by
  rw [← complete_setOwner_taken]
  exact requestFrame_answers h hb he FrameKind.noConfusion FrameKind.noConfusion hx

/-- RELEASE of an entry that its owner may release (R46). -/
theorem exec_release {x : Entry} (h : s.serves f.port) (hb : f.bits = 8 * 4) (ho : s.ownerOf x = .owned f.port)
    (hn : s.busyEntry x = false) :
    exec (.release f (tableByte x) (indexByte x)) s = .next ((s.releaseEntry x).answered f .done []) := by
  rw [← complete_releaseEntry_taken]
  exact requestFrame_answers (x := .done _) h hb rfl FrameKind.noConfusion FrameKind.noConfusion
    (applyRelease_released ((taken_ownerOf s f x).trans ho) ((taken_busyEntry s f x).trans hn))

theorem exec_queryEntry (h : s.serves f.port) (hb : f.bits = 8 * 4) (x : Entry) :
    exec (.queryEntry f (tableByte x) (indexByte x)) s = .next (s.answered f .done (s.entryBytes x)) := by
  rw [← taken_entryBytes s f]
  exact ownershipFrame_answers h hb rfl (applyQueryEntry_reports (p := f.port))

end AtFrameEnd

/-- Settles O20: the outcomes of the ownership requests, taken to their frame ends. -/
theorem ownershipRequests : Obligations.OwnershipRequests := by
  refine ⟨fun f x s hs hb => ⟨fun hx => ?claim, fun hx => ?adopt⟩,
    fun f s hs hb => ⟨fun table index hn => ⟨?_, ?_, ?_, ?_⟩,
      fun x => ⟨fun hx => ?entryTaken, fun hx => ?notOrphaned, fun hx => ?notOwner, fun k hk ho hi => ?busy⟩⟩⟩
  case claim => exact ownershipFrame_setsOwner hs hb rfl (applyClaim_free ((taken_ownerOf s f x).trans hx))
  case adopt => exact ownershipFrame_setsOwner hs hb rfl (applyAdopt_orphaned ((taken_ownerOf s f x).trans hx))
  case entryTaken => exact ownershipFrame_answers hs hb rfl (applyClaim_taken (taken_ownerOf s f x ▸ hx))
  case notOrphaned => exact ownershipFrame_answers hs hb rfl (applyAdopt_notOrphaned (taken_ownerOf s f x ▸ hx))
  case notOwner => exact ownershipFrame_answers hs hb rfl (applyRelease_notOwner (taken_ownerOf s f x ▸ hx))
  case busy =>
    subst hk
    exact ownershipFrame_answers hs hb rfl (applyRelease_busy (x := .channel k) ho (bne_iff_ne.mpr hi))
  · exact ownershipFrame_answers hs hb rfl (applyClaim_badParameter hn)
  · exact ownershipFrame_answers hs hb rfl (applyAdopt_badParameter hn)
  · exact ownershipFrame_answers hs hb rfl (applyRelease_badParameter hn)
  · exact ownershipFrame_answers hs hb rfl (applyQueryEntry_badParameter (p := f.port) hn)

/-- Settles O21: what RELEASE leaves of an entry of each table. -/
theorem releaseFreesEntry : Obligations.ReleaseFreesEntry := by
  refine fun f s hs hb => ⟨fun a ho => ?_, fun w ho => ?_, fun k ho hi => ?_⟩
  · rw [← unbindFrom_eq_unbound]
    exact exec_release (x := .anchor a) hs hb ho rfl
  · exact exec_release (x := .watch w) hs hb ho rfl
  · exact exec_release (x := .channel k) hs hb ho (bne_eq_false_iff_eq.mpr hi)

/-! ### The bytes of an entry (Tables 9-3 and 9-5) -/

/-- Two flags in one byte, as the sum of their bits and as the union of their masks. -/
theorem twoFlags (a b : Bool) :
    BitVec.ofNat 8 (bitAt 0 a + bitAt 1 b) = (if a = true then 1 else 0) ||| (if b = true then 2 else 0) := by
  revert a b
  decide

/-- Five flags in one byte, likewise. -/
theorem fiveFlags (a b c d e : Bool) :
    BitVec.ofNat 8 (bitAt 0 a + bitAt 1 b + bitAt 2 c + bitAt 3 d + bitAt 4 e) =
      (if a = true then 1 else 0) ||| (if b = true then 2 else 0) ||| (if c = true then 4 else 0) |||
        (if d = true then 8 else 0) ||| (if e = true then 16 else 0) := by
  revert a b c d e
  decide

theorem anchor_bytes_eq (e : Anchor) :
    e.bytes = e.owner.byte :: (leBytes 2 (e.region.elim 65535 Region.base) ++
      leBytes 2 (e.region.elim 0 Region.length) ++
      [(if e.ring = true then 1 else 0) ||| (if e.access = .ownerWrites then 2 else 0)]) := by
  have hf : leBytes 1 (bitAt 0 e.ring + bitAt 1 (e.access == .ownerWrites)) =
      [(if e.ring = true then 1 else 0) ||| (if e.access = .ownerWrites then 2 else 0)] := by
    simpa only [leBytes, beq_iff_eq] using congrArg (fun b => [b]) (twoFlags e.ring (e.access == .ownerWrites))
  unfold Anchor.bytes
  rw [hf]
  cases e.region <;> rfl

theorem anchor_bytes_length (e : Anchor) : e.bytes.length = 6 := rfl

theorem watch_flagsByte_eq (e : Watch) :
    e.flagsByte = (if e.config.enabled = true then 1 else 0) ||| (if e.config.hold = true then 2 else 0) |||
      (if e.config.excludeWriter = true then 4 else 0) ||| (if e.config.mode = .level then 8 else 0) |||
      (if e.lastOutcome = true then 16 else 0) := by
  unfold Watch.flagsByte
  rw [fiveFlags]
  simp only [beq_iff_eq]

theorem watch_bytes_eq (e : Watch) :
    e.bytes = [e.owner.byte,
        (if e.config.enabled = true then 1 else 0) ||| (if e.config.hold = true then 2 else 0) |||
        (if e.config.excludeWriter = true then 4 else 0) ||| (if e.config.mode = .level then 8 else 0) |||
        (if e.lastOutcome = true then 16 else 0)] ++
      leBytes 2 e.config.start ++ leBytes 2 e.config.stop ++
      [BitVec.ofNat 8 (e.config.kinds.toNat + 16 * e.config.width.code + 64 * e.config.condition.code),
        e.config.permit] ++ leBytes 4 e.config.reference ++ leBytes 2 e.config.quietLimit ++
      [BitVec.ofNat 8 (e.quiet.code + 16 * e.config.priority)] ++ leBytes 2 e.countdown ++
      [BitVec.ofNat 8 (e.subscribers.toNat + 16 * triggerCode e.config.trigger)] ++ leBytes 2 e.hits := by
  rw [← watch_flagsByte_eq]
  rfl

theorem watch_bytes_length (e : Watch) : e.bytes.length = 20 := rfl

theorem runs_bytes_length (r : Runs) : r.bytes.length = 2 := by
  cases r <;> rfl

theorem channel_bytes_eq (e : Channel) :
    e.bytes = e.owner.byte :: (leBytes 2 e.config.source ++ leBytes 2 e.config.destination ++
      leBytes 2 e.config.length ++
      [(if e.config.sourceHold = true then 1 else 0) ||| (if e.config.notify = .lastRun then 2 else 0),
        BitVec.ofNat 8 e.config.budget] ++ e.runsLeft.bytes ++
      [BitVec.ofNat 8 e.config.priority, BitVec.ofNat 8 e.config.report.toNat, BitVec.ofNat 8 e.phase.code] ++
      leBytes 2 e.copied ++ [BitVec.ofNat 8 e.collapsed]) := by
  have hf : BitVec.ofNat 8 (bitAt 0 e.config.sourceHold + bitAt 1 (e.config.notify == .lastRun)) =
      (if e.config.sourceHold = true then 1 else 0) ||| (if e.config.notify = .lastRun then 2 else 0) := by
    simpa only [beq_iff_eq] using twoFlags e.config.sourceHold (e.config.notify == .lastRun)
  rw [← hf]
  simp only [Channel.bytes, leBytes, List.append_assoc, List.cons_append, List.nil_append]

theorem channel_bytes_length (e : Channel) : e.bytes.length = 17 := by
  simp only [Channel.bytes, leBytes, List.length_append, List.length_cons, List.length_nil, runs_bytes_length]

/-- Settles O22: QUERY_ENTRY answers with the bytes of the entry, which are those of Table 9-5. -/
theorem queryEntryReportsEntry : Obligations.QueryEntryReportsEntry := by
  refine ⟨⟨rfl, rfl, by decide, rfl, rfl, rfl, rfl, rfl, rfl, rfl, rfl, rfl, rfl, rfl, rfl, rfl, rfl, rfl,
    fun _ => rfl, rfl, fun _ => rfl⟩, fun f s hs hb => ⟨fun a e ha => ?_, fun w e hw => ?_, fun k e hk => ?_⟩⟩
  · subst ha
    exact ⟨_, anchor_bytes_length _, exec_queryEntry hs hb (.anchor a), anchor_bytes_eq _⟩
  · subst hw
    exact ⟨_, watch_bytes_length _, exec_queryEntry hs hb (.watch w), watch_bytes_eq _⟩
  · subst hk
    exact ⟨_, channel_bytes_length _, exec_queryEntry hs hb (.channel k), channel_bytes_eq _⟩

end Sys2Proof.EntryOwnership
end

section
/-! SUPPORT. ATTACH and DETACH (chapter 8): the tables they leave, the change they make at each port, and the statement
about them. -/

namespace Sys2Proof.Presence

open Sys2Proof Sys2Proof.Machine Sys2Proof.Claims Sys2Proof.RequestEffects

/-! ### The tables, where no run-end notice is kept -/

theorem leaveSets_eq {s : State} (h : s.lateNotice = none) (p : PortId) : s.leaveSets p = leftSets p s := by
  have hl : s.lateNotice.map (LateNotice.leave p) = s.lateNotice := by rw [h]; rfl
  unfold State.leaveSets
  rw [hl]
  rfl

theorem portReset_eq {s : State} (h : s.lateNotice = none) (p : PortId) :
    s.portReset p = (orphanTables p s).modPort p Port.reset := by
  have hl : s.lateNotice.map (LateNotice.leave p) = s.lateNotice := by rw [h]; rfl
  unfold State.portReset
  rw [hl]
  rfl

/-! ### The ports -/

/-- A port's reset and its new state: an empty queue meets no threshold (R108, R143). -/
theorem drive_reset (m : PortMode) (q : Port) : ({ q.reset with mode := m } : Port).drive = resetTo m q := by
  simp [Port.drive, Port.reset, Port.attentionCondition, resetTo]

/-- The set of the other ports (R144). -/
theorem getLsbD_others (p q : PortId) : (~~~(single p.val) : BitVec 4).getLsbD q.val = decide (q ≠ p) := by
  revert p q
  decide

/-- A change of port `p` and its announcement: each port sees its own part (R144). -/
theorem modPort_announce (s : State) (p : PortId) (g : Port → Port) (kind : Byte) :
    (s.modPort p g).announce p kind =
      s.mapPorts (fun q x => if q = p then g x else x.post (presence p kind)) := by
  refine eq_of_ports rfl (fun q => ?_)
  rw [State.announce, port_postTo, getLsbD_others, port_mapPorts]
  by_cases hq : q = p
  · subst hq
    simp
  · rw [port_modPort_other _ _ (Ne.symm hq), if_neg hq, if_pos (decide_eq_true hq)]
    rfl

/-- The change of the requesting port neither sees nor changes its frame side. -/
structure SparesFrameSide (g : Port → Port) : Prop where
  tag : ∀ q, (g q).slot.tag = q.slot.tag
  frameSide : ∀ q a b c d, g (q.withFrameSide a b c d) = (g q).withFrameSide a b c d
  frame : ∀ q, (g q).frame = q.frame

/-- A change of the requesting port and its announcement, completed. -/
theorem complete_announce_taken (s : State) (f : Frame) {g : Port → Port} (hg : SparesFrameSide g) (kind : Byte) :
    (((s.taken f).modPort f.port g).announce f.port kind).complete f.port .done [] =
      (s.mapPorts (fun p q => if p = f.port then g q else q.post (presence f.port kind))).answered f .done [] := by
  rw [modPort_announce]
  refine complete_mapPorts_taken s f _ _ .done [] ?_ ?_ ?_
  · exact fun _ _ => rfl
  · rw [if_pos rfl, hg.tag, taken_port]
  · have hq : (s.taken f).port f.port = (s.port f.port).withFrameSide ⟨f.tag, .pending, []⟩
        (s.port f.port).inFlight none ((s.port f.port).frame.map (fun o => ⟨o.header, f.bits⟩)) := taken_port s f
    rw [if_pos rfl, if_pos rfl, hq, hg.frameSide, hg.frame]
    rfl

theorem resetTo_spares (m : PortMode) : SparesFrameSide (resetTo m) :=
  ⟨fun _ => rfl, fun _ _ _ _ _ => rfl, fun _ => rfl⟩

theorem attached_spares :
    SparesFrameSide (fun q => { q with mode := .attached, attention := reaches q.queue q.threshold }) :=
  ⟨fun _ => rfl, fun _ _ _ _ _ => rfl, fun _ => rfl⟩

/-! ### At the frame end -/

/-- A port reset, the new state and the notices, completed (R141, R142). -/
theorem reset_completes {s : State} (h : s.lateNotice = none) (f : Frame) (m : PortMode) (kind : Byte) :
    ((((s.taken f).portReset f.port).setMode f.port m).announce f.port kind).complete f.port .done [] =
      (orphanTables f.port (s.mapPorts (fun p q =>
        if p = f.port then resetTo m q else q.post (presence f.port kind)))).answered f .done [] := by
  have hm : ((s.taken f).portReset f.port).setMode f.port m =
      ((orphanTables f.port s).taken f).modPort f.port (resetTo m) := by
    have ht : (s.taken f).lateNotice = none := h
    rw [portReset_eq ht, State.setMode, modPort_modPort]
    simp only [drive_reset]
    rfl
  rw [hm, complete_announce_taken _ f (resetTo_spares m)]
  rfl

/-- An ATTACH from DETACHED, completed (R140). -/
theorem attach_completes {s : State} (h : s.lateNotice = none) (f : Frame) :
    ((((s.taken f).leaveSets f.port).setMode f.port .attached).announce f.port kindAttached).complete f.port .done [] =
      (leftSets f.port (s.mapPorts (fun p q =>
        if p = f.port then { q with mode := .attached, attention := reaches q.queue q.threshold }
        else q.post (presence f.port 1)))).answered f .done [] := by
  have hm : ((s.taken f).leaveSets f.port).setMode f.port .attached =
      ((leftSets f.port s).taken f).modPort f.port
        (fun q => { q with mode := .attached, attention := reaches q.queue q.threshold }) := by
    have ht : (s.taken f).lateNotice = none := h
    rw [leaveSets_eq ht]
    rfl
  rw [hm, complete_announce_taken _ f attached_spares]
  rfl

theorem taken_mode (s : State) (f : Frame) : ((s.taken f).port f.port).mode = (s.port f.port).mode := by
  rw [taken_port]

theorem lateNotice_of_frameOpen {s : State} {p : PortId} (h : s.frameOpen p) : s.lateNotice = none := by
  obtain ⟨-, ⟨-, hl, -⟩, -⟩ := h
  exact hl

/-- Settles O11: the request is taken on a DETACHED port as on an ATTACHED one, and each change is completed. -/
theorem attachAndDetach : Obligations.AttachAndDetach := by
  refine ⟨?attach, fun f s hs hb => ⟨?reattach, ?detach⟩⟩
  case attach =>
    intro f s ho hg hi hm hb
    have hx : applyAttach f.port (s.taken f) =
        .done ((((s.taken f).leaveSets f.port).setMode f.port .attached).announce f.port kindAttached) :=
      if_pos ((taken_mode s f).trans hm)
    have he : exec (.attach f) s = .next ((s.frameOver f.port f.bits).takeRequest f.port f.tag .attach) :=
      exec_taken rfl ho hi (.inr rfl) (frameFits_of_length hb rfl)
    rw [he, takeRequest_free hg, State.applyAndComplete, applyRequest, hx,
      ← attach_completes (lateNotice_of_frameOpen ho)]
    rfl
  case reattach =>
    have ⟨⟨ho, ha, _⟩, _⟩ := hs
    have hm : ((s.taken f).port f.port).mode ≠ .detached := by
      rw [taken_mode, ha]
      exact PortMode.noConfusion
    rw [← reset_completes (lateNotice_of_frameOpen ho)]
    exact requestFrame_answers (x := .done _) hs hb rfl FrameKind.noConfusion FrameKind.noConfusion (if_neg hm)
  case detach =>
    have ⟨⟨ho, _⟩, _⟩ := hs
    rw [← reset_completes (lateNotice_of_frameOpen ho)]
    exact requestFrame_answers (x := .done _) hs hb rfl FrameKind.noConfusion FrameKind.noConfusion rfl

end Sys2Proof.Presence
end

section
/-! SUPPORT. A request taken while a grant holds the array (R132, R143, R160), and the statement about it. -/

namespace Sys2Proof.Waiting

open Sys2Proof Sys2Proof.Machine Sys2Proof.Claims Sys2Proof.AnchorsAndCursors Sys2Proof.RequestEffects

/-- An abort waits for the segment of its own channel (R132). -/
theorem deferral_own_segment (k : ChannelId) (moved : Option Nat) :
    deferral (.segment k moved) (.abortChannel (BitVec.ofNat 8 k.val)) = .afterSegment k := by
  have hk : (BitVec.ofNat 8 k.val).toNat = k.val := Nat.mod_eq_of_lt (k.isLt.trans (by decide))
  exact if_pos hk

/-- Any other request waits for the completion as such (R160). -/
theorem deferral_other {g : Grant} {r : Request}
    (h : ∀ (k : ChannelId) (moved : Option Nat), g = .segment k moved →
      r ≠ .abortChannel (BitVec.ofNat 8 k.val)) :
    deferral g r = .deferred r := by
  unfold deferral
  split
  · next k moved channel =>
    refine if_neg (fun hk => h k moved rfl ?_)
    rw [← hk, BitVec.ofNat_toNat, BitVec.setWidth_eq]
  · rfl

/-- Settles O46: the request is taken, and what it waits for is decided by the grant. -/
theorem requestsWaitForOpenGrant : Obligations.RequestsWaitForOpenGrant := by
  intro i f code r g s hr ho hi hm hg hf
  have hm' : (s.port f.port).mode ≠ .detached ∨ r = .attach := hm.imp_left (fun ha hd => by cases ha.symm.trans hd)
  rw [exec_taken hr ho hi hm' hf, takeRequest_granted hg]
  refine ⟨fun k moved hk hab => ?_, fun h => ?_⟩
  · subst hk hab
    rw [deferral_own_segment]
  · rw [deferral_other h]

end Sys2Proof.Waiting
end

section
/-! SUPPORT. What is due before a command (R55, R83, R86, R111, R132, R160): the operations that neither see nor change
what surrounds them, what `settle` leaves, its first act, and the statement about it. -/

namespace Sys2Proof.DueWork

open Sys2Proof Sys2Proof.Machine Sys2Proof.Claims Sys2Proof.RequestEffects

/-! ### The surroundings of an operation -/

/-- The fields that the requests, the lapses and the run ends neither see nor change: the supply, the time base, the
grant, what waits for the access completion, and the lapses still due. -/
structure Surroundings where
  supply : Bool
  ticking : Bool
  grant : Option Grant
  deferredOrder : List Deferred
  lapsesDue : List WatchId

/-- The surroundings of a state. -/
def around (s : State) : Surroundings := ⟨s.supply, s.ticking, s.grant, s.deferredOrder, s.lapsesDue⟩

/-- The state in other surroundings. -/
def within (c : Surroundings) (s : State) : State :=
  { s with
    supply := c.supply
    ticking := c.ticking
    grant := c.grant
    deferredOrder := c.deferredOrder
    lapsesDue := c.lapsesDue }

/-- An operation that neither sees nor changes its surroundings. -/
def Blind (g : State → State) : Prop := ∀ c s, g (within c s) = within c (g s)

section Surroundings

variable (c : Surroundings) (s : State)

theorem within_around : within (around s) s = s := rfl

@[simp] theorem around_within : around (within c s) = c := rfl

@[simp] theorem port_within (p : PortId) : (within c s).port p = s.port p := rfl
@[simp] theorem anchor_within (a : AnchorId) : (within c s).anchor a = s.anchor a := rfl
@[simp] theorem watch_within (w : WatchId) : (within c s).watch w = s.watch w := rfl
@[simp] theorem channel_within (k : ChannelId) : (within c s).channel k = s.channel k := rfl
@[simp] theorem tickTriggered_within : (within c s).tickTriggered = s.tickTriggered := rfl

end Surroundings

section Blind

variable {g : State → State} (hg : Blind g)

include hg

theorem Blind.around (s : State) : around (g s) = around s := by
  have h := hg (DueWork.around s) s
  rw [within_around] at h
  rw [h, around_within]

theorem Blind.supply (s : State) : (g s).supply = s.supply := congrArg Surroundings.supply (hg.around s)

theorem Blind.ticking (s : State) : (g s).ticking = s.ticking := congrArg Surroundings.ticking (hg.around s)

theorem Blind.grant (s : State) : (g s).grant = s.grant := congrArg Surroundings.grant (hg.around s)

theorem Blind.deferredOrder (s : State) : (g s).deferredOrder = s.deferredOrder :=
  congrArg Surroundings.deferredOrder (hg.around s)

theorem Blind.lapsesDue (s : State) : (g s).lapsesDue = s.lapsesDue := congrArg Surroundings.lapsesDue (hg.around s)

/-- Only the lapses due differ. -/
theorem Blind.withLapsesDue (s : State) (ws : List WatchId) :
    g { s with lapsesDue := ws } = { g s with lapsesDue := ws } := by
  have h : g { s with lapsesDue := ws } = within { DueWork.around s with lapsesDue := ws } (g s) :=
    hg { DueWork.around s with lapsesDue := ws } s
  rw [h, ← hg.around s]
  rfl

/-- Only what waits for the access completion differs. -/
theorem Blind.withDeferredOrder (s : State) (ds : List Deferred) :
    g { s with deferredOrder := ds } = { g s with deferredOrder := ds } := by
  have h : g { s with deferredOrder := ds } = within { DueWork.around s with deferredOrder := ds } (g s) :=
    hg { DueWork.around s with deferredOrder := ds } s
  rw [h, ← hg.around s]
  rfl

end Blind

theorem Blind.comp {g h : State → State} (hh : Blind h) (hg : Blind g) : Blind (fun s => h (g s)) := by
  intro c s
  dsimp only
  rw [hg, hh]

/-- Blind acts one after the other. -/
theorem Blind.foldl {α : Type} {g : State → α → State} (hg : ∀ a, Blind (fun s => g s a)) (l : List α) :
    Blind (fun s => l.foldl g s) := by
  intro c s
  induction l generalizing s with
  | nil => rfl
  | cons a l ih =>
    have ha : g (within c s) a = within c (g s a) := hg a c s
    simp only [List.foldl_cons, ha]
    exact ih (g s a)

/-! ### Posts, run ends and lapses -/

theorem blind_postLate : Blind State.postLate := by
  intro c s
  cases h : s.lateNotice with
  | none => rw [postLate_none h, postLate_none (s := within c s) h]
  | some l =>
    rw [postLate_some h, postLate_some (s := within c s) h]
    rfl

theorem blind_postRunEnd (post : RunEndPost) (set : BitVec 4) (n : Notice) :
    Blind (fun s => s.postRunEnd post set n) := by
  cases post with
  | atOnce => exact fun _ _ => rfl
  | afterNext =>
    intro c s
    simp only [postRunEnd_afterNext, blind_postLate c s]
    rfl

theorem blind_channelReports (post : RunEndPost) (k : ChannelId) (e : Channel) (kinds : Byte) :
    Blind (fun s => s.channelReports post k e kinds) :=
  (blind_postRunEnd post _ _).comp (g := fun s => s.setChannel k { e with collapsed := 0 }) (fun _ _ => rfl)

theorem blind_setPhase (k : ChannelId) (m : Phase) : Blind (fun s => s.setPhase k m) := fun _ _ => rfl

theorem blind_channelReports_setPhase (post : RunEndPost) (k : ChannelId) (e : Channel) (kinds : Byte) (m : Phase) :
    Blind (fun s => (s.channelReports post k e kinds).setPhase k m) :=
  (blind_setPhase k m).comp (blind_channelReports post k e kinds)

theorem blind_rerun (k : ChannelId) : Blind (fun s => s.setChannel k (s.channel k).rerun) := fun _ _ => rfl

theorem blind_normalRunEnd (post : RunEndPost) (k : ChannelId) : Blind (fun s => s.normalRunEnd post k) := by
  intro c s
  unfold State.normalRunEnd
  simp only [channel_within]
  by_cases hx : (s.channel k).runsLeft.spend.exhausted = true
  · simp only [hx, if_true]
    exact blind_channelReports_setPhase post k _ _ .idle c s
  · by_cases hn : (s.channel k).config.notify = .eachRun
    · simp only [hx, hn, if_true]
      exact (blind_rerun k).comp (blind_channelReports post k _ kindDone) c s
    · simp only [hx, hn, if_false]
      rfl

theorem blind_faultedRunEnd (post : RunEndPost) (k : ChannelId) : Blind (fun s => s.faultedRunEnd post k) := by
  intro c s
  unfold State.faultedRunEnd
  simp only [channel_within]
  by_cases hx : (s.channel k).runsLeft.spend.exhausted = true
  · simp only [hx, if_true]
    exact blind_channelReports_setPhase post k _ _ .idle c s
  · simp only [hx]
    exact blind_channelReports_setPhase post k _ _ .armed c s

theorem blind_segmentCompletes (k : ChannelId) (moved : Option Nat) (post : RunEndPost) :
    Blind (fun s => s.segmentCompletes k moved post) := by
  cases moved with
  | none => exact blind_faultedRunEnd post k
  | some size =>
    intro c s
    simp only [State.segmentCompletes, channel_within]
    by_cases hl : (s.channel k).copied + size < (s.channel k).config.length
    · simp only [hl, if_true]
      rfl
    · simp only [hl, if_false]
      exact blind_normalRunEnd post k c (s.setChannel k { s.channel k with copied := (s.channel k).copied + size })

theorem blind_abort (k : ChannelId) : Blind (fun s => s.abort k) := by
  intro c s
  unfold State.abort
  simp only [channel_within]
  by_cases hr : (s.channel k).inRun = true
  · simp only [hr, if_true]
    exact blind_channelReports_setPhase .atOnce k _ _ .idle c s
  · simp only [hr]
    rfl

theorem blind_lapseOf (w : WatchId) : Blind (fun s => s.lapseOf w) := by
  intro c s
  simp only [State.lapseOf, watch_within, tickTriggered_within]
  cases (s.watch w).config.trigger with
  | none => rfl
  | some k =>
    simp only [triggerOnce_some]
    split <;> rfl

theorem blind_foldLapses (ws : List WatchId) : Blind (fun s => ws.foldl State.lapseOf s) := Blind.foldl blind_lapseOf ws

/-! ### Requests -/

/-- What applying a request gives, in other surroundings. -/
def Applied.within (c : Surroundings) (x : Applied) : Applied := ⟨DueWork.within c x.state, x.code, x.data⟩

/-- A check that the surroundings do not decide. -/
theorem ite_within {c : Surroundings} {P Q : Prop} [Decidable P] [Decidable Q] (h : P ↔ Q) {x y x' y' : Applied}
    (hx : x' = Applied.within c x) (hy : y' = Applied.within c y) :
    (if P then x' else y') = Applied.within c (if Q then x else y) := by
  by_cases hq : Q
  · rw [if_pos (h.mpr hq), if_pos hq, hx]
  · rw [if_neg (mt h.mp hq), if_neg hq, hy]

section Requests

variable (p : PortId) (c : Surroundings) (s : State)

theorem applyTakeNotice_within (mode : Byte) :
    applyTakeNotice p mode (within c s) = Applied.within c (applyTakeNotice p mode s) := by
  simp only [applyTakeNotice, port_within]
  refine ite_within .rfl rfl ?_
  cases selected (s.port p).queue with
  | none => rfl
  | some r => exact ite_within .rfl rfl rfl

theorem applyFinishService_within :
    applyFinishService p (within c s) = Applied.within c (applyFinishService p s) := by
  simp only [applyFinishService, port_within]
  cases (s.port p).stack <;> rfl

theorem applySetAnchor_within (b : AnchorBytes) :
    applySetAnchor p b (within c s) = Applied.within c (applySetAnchor p b s) := by
  unfold applySetAnchor
  split
  · exact ite_within .rfl rfl (ite_within .rfl rfl (ite_within .rfl rfl (ite_within .rfl rfl rfl)))
  · rfl

theorem applyBindCursor_within (cursor anchor : Byte) (offset : Half) :
    applyBindCursor p cursor anchor offset (within c s) =
      Applied.within c (applyBindCursor p cursor anchor offset s) := by
  simp only [applyBindCursor, anchor_within]
  split
  · next a _ _ =>
    cases (s.anchor a).region with
    | none => rfl
    | some g => exact ite_within .rfl rfl rfl
  · rfl

theorem applyQueryCursor_within (cursor : Byte) :
    applyQueryCursor p cursor (within c s) = Applied.within c (applyQueryCursor p cursor s) := by
  unfold applyQueryCursor
  cases index? 4 cursor <;> rfl

theorem applySetWatch_within (b : WatchBytes) :
    applySetWatch p b (within c s) = Applied.within c (applySetWatch p b s) := by
  unfold applySetWatch
  cases watchConfig? b with
  | none => rfl
  | some x => exact ite_within .rfl rfl rfl

theorem applySubscribe_within (watch : Byte) :
    applySubscribe p watch (within c s) = Applied.within c (applySubscribe p watch s) := by
  unfold applySubscribe
  cases index? 16 watch with
  | none => rfl
  | some w => exact ite_within .rfl rfl rfl

theorem applyUnsubscribe_within (watch : Byte) :
    applyUnsubscribe p watch (within c s) = Applied.within c (applyUnsubscribe p watch s) := by
  unfold applyUnsubscribe
  cases index? 16 watch with
  | none => rfl
  | some w => exact ite_within .rfl rfl rfl

theorem applySetChannel_within (b : ChannelBytes) :
    applySetChannel p b (within c s) = Applied.within c (applySetChannel p b s) := by
  unfold applySetChannel
  cases channelConfig? b with
  | none => rfl
  | some x => exact ite_within .rfl rfl (ite_within .rfl rfl rfl)

theorem applyArmChannel_within (channel : Byte) :
    applyArmChannel p channel (within c s) = Applied.within c (applyArmChannel p channel s) := by
  unfold applyArmChannel
  cases index? 4 channel with
  | none => rfl
  | some k => exact ite_within .rfl rfl (ite_within .rfl rfl (ite_within .rfl rfl rfl))

theorem applyStartChannel_within (channel : Byte) :
    applyStartChannel p channel (within c s) = Applied.within c (applyStartChannel p channel s) := by
  unfold applyStartChannel
  cases index? 4 channel with
  | none => rfl
  | some k => exact ite_within .rfl rfl (ite_within .rfl rfl rfl)

theorem applyAbortChannel_within (channel : Byte) :
    applyAbortChannel p channel (within c s) = Applied.within c (applyAbortChannel p channel s) := by
  unfold applyAbortChannel
  cases index? 4 channel with
  | none => rfl
  | some k => exact ite_within .rfl rfl (congrArg Applied.done (blind_abort k c s))

theorem ownerOf_within (x : Entry) : (within c s).ownerOf x = s.ownerOf x := by
  cases x <;> rfl

theorem setOwner_within (x : Entry) (o : Owner) : (within c s).setOwner x o = within c (s.setOwner x o) := by
  cases x <;> rfl

theorem busyEntry_within (x : Entry) : (within c s).busyEntry x = s.busyEntry x := by
  cases x <;> rfl

theorem releaseEntry_within (x : Entry) : (within c s).releaseEntry x = within c (s.releaseEntry x) := by
  cases x <;> rfl

theorem entryBytes_within (x : Entry) : (within c s).entryBytes x = s.entryBytes x := by
  cases x <;> rfl

theorem applyClaim_within (table index : Byte) :
    applyClaim p table index (within c s) = Applied.within c (applyClaim p table index s) := by
  simp only [applyClaim, ownerOf_within, setOwner_within]
  cases entry? table index with
  | none => rfl
  | some x => exact ite_within .rfl rfl rfl

theorem applyAdopt_within (table index : Byte) :
    applyAdopt p table index (within c s) = Applied.within c (applyAdopt p table index s) := by
  simp only [applyAdopt, ownerOf_within, setOwner_within]
  cases entry? table index with
  | none => rfl
  | some x => exact ite_within .rfl rfl rfl

theorem applyRelease_within (table index : Byte) :
    applyRelease p table index (within c s) = Applied.within c (applyRelease p table index s) := by
  simp only [applyRelease, ownerOf_within, busyEntry_within, releaseEntry_within]
  cases entry? table index with
  | none => rfl
  | some x => exact ite_within .rfl rfl (ite_within .rfl rfl rfl)

theorem applyQueryEntry_within (table index : Byte) :
    applyQueryEntry p table index (within c s) = Applied.within c (applyQueryEntry p table index s) := by
  simp only [applyQueryEntry, entryBytes_within]
  cases entry? table index <;> rfl

/-- No request sees or changes its surroundings. -/
theorem applyRequest_within (r : Request) :
    applyRequest p r (within c s) = Applied.within c (applyRequest p r s) := by
  cases r with
  | attach => exact ite_within .rfl rfl rfl
  | detach => rfl
  | doze => exact ite_within .rfl rfl rfl
  | setLevels threshold wake => exact ite_within .rfl rfl rfl
  | clearFlags flags => exact ite_within .rfl rfl rfl
  | takeNotice mode => exact applyTakeNotice_within p c s mode
  | finishService => exact applyFinishService_within p c s
  | setAnchor a => exact applySetAnchor_within p c s a
  | bindCursor cursor anchor offset => exact applyBindCursor_within p c s cursor anchor offset
  | queryCursor cursor => exact applyQueryCursor_within p c s cursor
  | setWatch w => exact applySetWatch_within p c s w
  | subscribe watch => exact applySubscribe_within p c s watch
  | unsubscribe watch => exact applyUnsubscribe_within p c s watch
  | setChannel b => exact applySetChannel_within p c s b
  | armChannel channel => exact applyArmChannel_within p c s channel
  | startChannel channel => exact applyStartChannel_within p c s channel
  | abortChannel channel => exact applyAbortChannel_within p c s channel
  | claim table index => exact applyClaim_within p c s table index
  | adopt table index => exact applyAdopt_within p c s table index
  | release table index => exact applyRelease_within p c s table index
  | queryEntry table index => exact applyQueryEntry_within p c s table index

end Requests

/-- A request applied and completed (R161). -/
theorem blind_applyAndComplete (p : PortId) (r : Request) : Blind (fun s => s.applyAndComplete p r) := by
  intro c s
  simp only [State.applyAndComplete, applyRequest_within]
  rfl

theorem blind_applyDeferred (p : PortId) : Blind (fun s => s.applyDeferred p) := by
  intro c s
  simp only [State.applyDeferred, port_within]
  split
  · exact blind_applyAndComplete p _ c s
  · exact blind_applyAndComplete p _ c s
  · rfl

/-! ### Ticks, and what waited -/

/-- One tick with its lapses: of its surroundings it changes the lapses due alone (R86). -/
theorem wholeTick_within (c : Surroundings) (s : State) :
    (within c s).wholeTick = within { c with lapsesDue := [] } s.wholeTick := by
  have h := blind_foldLapses s.countTick.lapsesDue { c with lapsesDue := s.countTick.lapsesDue } s.countTick
  exact congrArg (fun t : State => { t with lapsesDue := [] }) h

/-- What waited for the access completion neither sees nor changes its surroundings, where no lapse is due. -/
theorem applyWaiting_within {c : Surroundings} (hc : c.lapsesDue = []) (s : State) (d : Deferred) :
    (within c s).applyWaiting d = within c (s.applyWaiting d) := by
  cases d with
  | request p => exact blind_applyDeferred p c s
  | tick =>
    have h : ({ c with lapsesDue := [] } : Surroundings) = c := by rw [← hc]
    rw [applyWaiting_tick, wholeTick_within, h]
    rfl

theorem foldWaiting_within {c : Surroundings} (hc : c.lapsesDue = []) (ds : List Deferred) (s : State) :
    ds.foldl State.applyWaiting (within c s) = within c (ds.foldl State.applyWaiting s) := by
  induction ds generalizing s with
  | nil => rfl
  | cons d ds ih => rw [List.foldl_cons, applyWaiting_within hc, ih, List.foldl_cons]

theorem foldWaiting_around {s : State} (h : s.lapsesDue = []) (ds : List Deferred) :
    around (ds.foldl State.applyWaiting s) = around s := by
  have hs := foldWaiting_within (c := around s) h ds s
  rw [within_around] at hs
  rw [hs, around_within]

/-! ### No run-end notice comes to be kept -/

theorem abort_lateNotice (s : State) (k : ChannelId) : (s.abort k).lateNotice = s.lateNotice := by
  unfold State.abort
  dsimp only
  split <;> rfl

theorem effect_lateNotice {s t : State} {p : PortId} (he : Effect p s t) (h : s.lateNotice = none) :
    t.lateNotice = none := by
  have hm : ∀ g : LateNotice → LateNotice, s.lateNotice.map g = none := fun g => by rw [h]; rfl
  cases he with
  | none => exact h
  | port g hg => exact h
  | own x => cases x <;> exact h
  | anchor a e g ho hg => exact h
  | watch w e ho hs => exact h
  | channel k e ho => exact h
  | abort k => exact (abort_lateNotice s k).trans h
  | attach hd => exact hm _
  | reset m kind => exact hm _

theorem applyRequest_lateNotice {s : State} (h : s.lateNotice = none) (p : PortId) (r : Request) :
    (applyRequest p r s).state.lateNotice = none := effect_lateNotice (applyRequest_effect p s r) h

theorem applyDeferred_lateNotice {s : State} (h : s.lateNotice = none) (p : PortId) :
    (s.applyDeferred p).lateNotice = none := by
  unfold State.applyDeferred
  split
  · exact applyRequest_lateNotice h p _
  · exact applyRequest_lateNotice h p _
  · exact h

theorem lapseOf_lateNotice (s : State) (w : WatchId) : (s.lapseOf w).lateNotice = s.lateNotice := by
  have h := triggerOnce_sameOutside
    ((s.setWatch w ({ s.watch w with quiet := .lapsed, countdown := 0 } : Watch).hit).postTo (s.watch w).subscribers
      (quietNotice w (s.watch w).config.priority)) s.tickTriggered (s.watch w).config.trigger
  exact (congrArg State.lateNotice h).symm

theorem foldLapses_lateNotice (ws : List WatchId) (s : State) :
    (ws.foldl State.lapseOf s).lateNotice = s.lateNotice := by
  induction ws generalizing s with
  | nil => rfl
  | cons w ws ih => rw [List.foldl_cons, ih, lapseOf_lateNotice]

theorem finishLapses_lateNotice (s : State) : s.finishLapses.lateNotice = s.lateNotice :=
  foldLapses_lateNotice s.lapsesDue s

theorem applyWaiting_lateNotice {s : State} (h : s.lateNotice = none) (d : Deferred) :
    (s.applyWaiting d).lateNotice = none := by
  cases d with
  | request p => exact applyDeferred_lateNotice h p
  | tick => exact (finishLapses_lateNotice s.countTick).trans h

theorem foldWaiting_lateNotice {s : State} (h : s.lateNotice = none) (ds : List Deferred) :
    (ds.foldl State.applyWaiting s).lateNotice = none :=
  List.foldlRecOn (motive := fun t : State => t.lateNotice = none) ds _ h
    (fun _ ht d _ => applyWaiting_lateNotice ht d)

/-! ### What `settle` leaves -/

/-- The lapses made: of their surroundings they change the lapses due alone. -/
theorem finishLapses_around (s : State) : around s.finishLapses = { around s with lapsesDue := [] } := by
  have h := (blind_foldLapses s.lapsesDue).around s
  have hf : around s.finishLapses =
      { around (s.lapsesDue.foldl State.lapseOf s) with lapsesDue := [] } := rfl
  rw [hf, h]

/-- What waited is done once the array is free, and waits on while it is not. -/
theorem afterCompletion_settled {s : State} (hl : s.lapsesDue = []) (hn : s.lateNotice = none) :
    s.afterCompletion.settled ∧ s.afterCompletion.supply = s.supply ∧ s.afterCompletion.ticking = s.ticking := by
  cases hg : s.grant with
  | some g =>
    rw [afterCompletion_granted hg]
    refine ⟨⟨hl, hn, fun h => ?_⟩, rfl, rfl⟩
    cases hg.symm.trans h
  | none =>
    have ha := foldWaiting_around (s := { s with deferredOrder := [] }) hl s.deferredOrder
    rw [afterCompletion_free hg]
    exact ⟨⟨(congrArg Surroundings.lapsesDue ha).trans hl,
        foldWaiting_lateNotice (s := { s with deferredOrder := [] }) hn _,
        fun _ => congrArg Surroundings.deferredOrder ha⟩,
      congrArg Surroundings.supply ha, congrArg Surroundings.ticking ha⟩

theorem settle_spec (s : State) : s.settle.settled ∧ s.settle.supply = s.supply ∧ s.settle.ticking = s.ticking := by
  have ha : around s.finishLapses.postLate = { around s with lapsesDue := [] } :=
    (blind_postLate.around s.finishLapses).trans (finishLapses_around s)
  obtain ⟨hs, hsup, htick⟩ := afterCompletion_settled (congrArg Surroundings.lapsesDue ha)
    (postLate_lateNotice s.finishLapses)
  exact ⟨hs, hsup.trans (congrArg Surroundings.supply ha), htick.trans (congrArg Surroundings.ticking ha)⟩

theorem settle_settle (s : State) : s.settle.settle = s.settle := settle_settled (settle_spec s).1

theorem clearWay_eq_settle {s : State} (h : s.lateNotice = none) : s.clearWay = s.settle := by
  have hf : s.finishLapses.lateNotice = none := (finishLapses_lateNotice s).trans h
  unfold State.clearWay State.settle
  rw [postLate_none hf]

theorem clearWay_settle (s : State) : s.settle.clearWay = s.settle := by
  obtain ⟨⟨hl, -, hd⟩, -⟩ := settle_spec s
  exact clearWay_settled hl hd

/-! ### The first act of `settle` -/

/-- The lapses of the latest tick come first. -/
theorem settle_finishLapses (s : State) : s.finishLapses.settle = s.settle := by
  have h : s.finishLapses.finishLapses = s.finishLapses :=
    finishLapses_none (congrArg Surroundings.lapsesDue (finishLapses_around s))
  unfold State.settle
  rw [h]

theorem finishLapses_nextLapse (s : State) : s.nextLapse.finishLapses = s.finishLapses := by
  cases h : s.lapsesDue with
  | nil =>
    have hn : s.nextLapse = s := by simp only [State.nextLapse, h]
    rw [hn]
  | cons w rest =>
    have hn : s.nextLapse = { s.lapseOf w with lapsesDue := rest } := by simp only [State.nextLapse, h]
    have hb := (blind_foldLapses rest).withLapsesDue (s.lapseOf w) rest
    unfold State.finishLapses
    rw [hn, h]
    simp only at hb ⊢
    rw [hb, List.foldl_cons]

theorem settle_nextLapse (s : State) : s.nextLapse.settle = s.settle := by
  unfold State.settle
  rw [finishLapses_nextLapse]

/-- Then a run-end notice that is kept. -/
theorem settle_postLate {s : State} (hl : s.lapsesDue = []) : s.postLate.settle = s.settle := by
  have hp : s.postLate.lapsesDue = [] := (postLate_lapsesDue s).trans hl
  unfold State.settle
  rw [finishLapses_none hl, finishLapses_none hp, postLate_none (postLate_lateNotice s)]

/-- Then what waited, in its order. -/
theorem settle_waiting {s : State} (hl : s.lapsesDue = []) (hn : s.lateNotice = none) (hg : s.grant = none) :
    s.settle = s.deferredOrder.foldl State.applyWaiting { s with deferredOrder := [] } := by
  unfold State.settle
  rw [finishLapses_none hl, postLate_none hn, afterCompletion_free hg]
  rfl

/-- The first of what waited is done with the rest waiting behind it. -/
theorem settle_first {s : State} {d : Deferred} {rest : List Deferred} (hl : s.lapsesDue = [])
    (hn : s.lateNotice = none) (hg : s.grant = none) (hd : s.deferredOrder = d :: rest) :
    s.settle = (State.applyWaiting { s with deferredOrder := rest } d).settle := by
  have hw : State.applyWaiting { s with deferredOrder := rest } d =
      within { around s with deferredOrder := rest } (s.applyWaiting d) :=
    applyWaiting_within (c := { around s with deferredOrder := rest }) hl s d
  have hw0 : State.applyWaiting { s with deferredOrder := [] } d =
      within { around s with deferredOrder := [] } (s.applyWaiting d) :=
    applyWaiting_within (c := { around s with deferredOrder := [] }) hl s d
  have hr := settle_waiting (s := within { around s with deferredOrder := rest } (s.applyWaiting d)) hl
    (applyWaiting_lateNotice hn d) hg
  rw [settle_waiting hl hn hg, hd, List.foldl_cons, hw, hw0, hr]
  rfl

/-- The tick of the statements is the one counted at the watch table (R86). -/
theorem ticked_eq_countTick (s : State) : ticked s = s.countTick := by
  have hc : (fun e : Watch => if e.config.enabled = true ∧ e.quiet = .running then
      { e with countdown := e.countdown - 1 } else e) = Watch.count := by
    funext e
    simp only [Watch.count, Watch.counting, Bool.and_eq_true, beq_iff_eq]
  have hi : List.finRange 16 = watchIds := by decide
  unfold ticked
  rw [hc, hi]
  rfl

/-! ### Commands act on the settled state -/

section Commands

variable {s : State}

theorem frameEnd_settle (hs : s.supply = true) (p : PortId) (bits : Nat) (tag : Byte) (fits : Bool) (kind : FrameKind)
    (take : State → State) :
    frameEnd p bits tag fits kind take s = frameEnd p bits tag fits kind take s.settle := by
  have hs' : s.settle.supply = true := (settle_spec s).2.1.trans hs
  unfold frameEnd State.endFrame
  rw [if_pos hs, if_pos hs', settle_settle]

/-- A request frame, of a memory request or any other, is a frame end. -/
theorem exec_of_requestBytes {i : Instr} {f : Frame} {code : Byte} {params : List Byte}
    (h : requestBytes i = some (f, code, params)) :
    ∃ fits kind take, ∀ s, exec i s = frameEnd f.port f.bits f.tag fits kind take s := by
  cases i <;> cases h <;> exact ⟨_, _, _, fun _ => rfl⟩

theorem execFrameStart_settle (hs : s.supply = true) (p : PortId) : execFrameStart p s = execFrameStart p s.settle := by
  have hs' : s.settle.supply = true := (settle_spec s).2.1.trans hs
  unfold execFrameStart
  rw [if_pos hs, if_pos hs', settle_settle]

theorem execTick_settle (s : State) : execTick s = execTick s.settle := by
  unfold execTick
  rw [settle_settle, (settle_spec s).2.2]

theorem execMemoryGrant_ends_settle (s : State) : execMemoryGrant .ends s = execMemoryGrant .ends s.settle :=
  congrArg (fun t : State => Host.Outcome.next t.endMemory) (settle_settle s).symm

theorem execSegmentGrant_ends_settle (post : RunEndPost) (s : State) :
    execSegmentGrant (.ends post) s = execSegmentGrant (.ends post) s.settle :=
  congrArg (fun t : State => Host.Outcome.next (t.endSegment post)) (settle_settle s).symm

theorem execMemoryGrant_settle (h : s.lateNotice = none) (span : GrantSpan) :
    execMemoryGrant span s = execMemoryGrant span s.settle := by
  have hc : s.clearWay = s.settle.clearWay := (clearWay_eq_settle h).trans (clearWay_settle s).symm
  cases span with
  | whole => exact congrArg (grantMemory _) hc
  | begins => exact congrArg (grantMemory id) hc
  | ends => exact execMemoryGrant_ends_settle s

theorem execSegmentGrant_settle (h : s.lateNotice = none) (span : SegmentSpan) :
    execSegmentGrant span s = execSegmentGrant span s.settle := by
  have hc : s.clearWay = s.settle.clearWay := (clearWay_eq_settle h).trans (clearWay_settle s).symm
  cases span with
  | whole post => exact congrArg (grantSegment _) hc
  | begins => exact congrArg (grantSegment id) hc
  | ends post => exact execSegmentGrant_ends_settle post s

theorem execLapse_none (h : s.lapsesDue = []) : execLapse s = .next s.settle := congrArg Host.Outcome.next (if_pos h)

theorem execLapse_due (h : s.lapsesDue ≠ []) : execLapse s = .next s.nextLapse :=
  congrArg Host.Outcome.next (if_neg h)

/-- While a grant holds the array, nothing is due but lapses and a kept notice. -/
theorem settled_of_granted {g : Grant} (hl : s.lapsesDue = []) (hn : s.lateNotice = none) (hg : s.grant = some g) :
    s.settled :=
  ⟨hl, hn, fun h => by cases hg.symm.trans h⟩

theorem execMemoryGrant_ends_access {p : PortId} {code : ResultCode} {data : List Byte} (hs : s.settled)
    (hg : s.grant = some (.access p code data)) :
    execMemoryGrant .ends s = .next (({ s with grant := none } : State).complete p code data) := by
  unfold execMemoryGrant
  simp only [settle_settled hs, State.endMemory, State.completeAccess, hg]

theorem execSegmentGrant_ends_segment {k : ChannelId} {moved : Option Nat} (post : RunEndPost) (hs : s.settled)
    (hg : s.grant = some (.segment k moved)) :
    execSegmentGrant (.ends post) s = .next (({ s with grant := none } : State).segmentCompletes k moved post) := by
  unfold execSegmentGrant
  simp only [settle_settled hs, State.endSegment, State.completeAccess, hg]

end Commands

/-- Settles O7: what `settle` leaves is settled, each of its acts comes first in its turn, and an access completion is
blind to what waits for it. -/
theorem dueBeforeEachCommand : Obligations.DueBeforeEachCommand := by
  refine ⟨fun s hs => ⟨fun i f code params hi => ?request, fun f code => frameEnd_settle hs _ _ _ _ _ _,
      fun p bits => frameEnd_settle hs _ _ _ _ _ _,
      fun p => ⟨frameEnd_settle hs _ _ _ _ _ _, execFrameStart_settle hs p⟩, execTick_settle s,
      execMemoryGrant_ends_settle s, fun post => execSegmentGrant_ends_settle post s, execLapse_none,
      fun hn => ⟨execMemoryGrant_settle hn, execSegmentGrant_settle hn⟩⟩,
    fun s => ⟨settle_settled, fun hl t ht => ?lapse, fun hl => ⟨fun l hn => ?late, fun hn hg =>
      ⟨fun p rest hd => ⟨fun r hr => ?deferred, fun k hk => ?abort⟩, fun rest hd => ?tick⟩⟩⟩,
    fun s hl hn => ⟨fun p code data hg => ?access, fun k moved post hg => ?segment⟩⟩
  case request =>
    obtain ⟨fits, kind, take, he⟩ := exec_of_requestBytes hi
    rw [he, he]
    exact frameEnd_settle hs _ _ _ _ _ _
  case lapse =>
    have ht : execLapse s = .next t := ht
    rw [execLapse_due hl] at ht
    cases ht
    exact (settle_nextLapse s).symm
  case late => rw [← settle_postLate hl, postLate_some hn]
  case deferred =>
    rw [settle_first hl hn hg hd, applyWaiting_request,
      applyDeferred_deferred (s := { s with deferredOrder := rest }) hr]
    rfl
  case abort =>
    rw [settle_first hl hn hg hd, applyWaiting_request,
      applyDeferred_abort (s := { s with deferredOrder := rest }) hk]
    rfl
  case tick =>
    rw [settle_first hl hn hg hd, applyWaiting_tick, ticked_eq_countTick]
    exact settle_finishLapses _
  case access =>
    exact ⟨_, execMemoryGrant_ends_access (settled_of_granted hl hn hg) hg, rfl, rfl⟩
  case segment =>
    exact ⟨_, execSegmentGrant_ends_segment post (settled_of_granted hl hn hg) hg, rfl,
      (blind_segmentCompletes k moved post).deferredOrder _⟩

end Sys2Proof.DueWork
end

section
/-! SUPPORT. When an access touches a watch range, a compare word or a held source (R58, R66, R127), and the statement
about holds. -/

namespace Sys2Proof.Ranges

open Sys2Proof Sys2Proof.Machine Sys2Proof.Claims

/-! ### Touching (R58) -/

theorem inRange_iff (start stop a : Nat) :
    inRange start stop a = true ↔ (start ≤ stop ∧ start ≤ a ∧ a ≤ stop) ∨ (stop < start ∧ (start ≤ a ∨ a ≤ stop)) := by
  by_cases h : start ≤ stop
  · simp [inRange, h, Nat.not_lt.mpr h]
  · simp [inRange, h, Nat.not_le.mp h]

theorem touches_iff (c : WatchConfig) (addrs : List Nat) :
    touches c.start c.stop addrs = true ↔ touchesWatch c addrs := by
  simp only [touches, List.any_eq_true, inRange_iff]

theorem touchesBlock_iff (start size : Nat) (addrs : List Nat) :
    touchesBlock start size addrs = true ↔ ∃ a ∈ addrs, start ≤ a ∧ a < start + size := by
  simp [touchesBlock]

/-! ### Run holds and watch holds (R66, R127) -/

theorem mem_channelIds (k : ChannelId) : k ∈ channelIds := by
  revert k
  decide

theorem inRun_iff (e : Channel) : e.inRun = true ↔ e.phase = .running ∨ e.phase = .runningLatched := by
  simp [Channel.inRun]

theorem runHolds_iff (e : Channel) (addrs : List Nat) :
    e.runHolds addrs = true ↔
      e.config.sourceHold = true ∧ (e.phase = .running ∨ e.phase = .runningLatched) ∧
        ∃ a ∈ addrs, e.config.source ≤ a ∧ a < e.config.source + e.config.length := by
  simp only [Channel.runHolds, Bool.and_eq_true, inRun_iff, touchesBlock_iff, and_assoc]

theorem runHeld_iff (s : State) (writer : Actor) (addrs : List Nat) :
    s.runHeld writer addrs = true ↔ ∃ k, writer ≠ .channel k ∧ (s.channel k).runHolds addrs = true := by
  simp only [State.runHeld, List.any_eq_true, mem_channelIds, true_and, Bool.and_eq_true, bne_iff_ne]

theorem refuses_iff (e : Watch) (writer : Actor) (addrs : List Nat) :
    e.refuses writer addrs = true ↔
      e.config.enabled = true ∧ e.config.hold = true ∧ touchesWatch e.config addrs ∧
        e.config.permit.getLsbD writer.code = false := by
  simp only [Watch.refuses, WatchConfig.permits, Bool.and_eq_true, touches_iff, Bool.not_eq_true', and_assoc]

theorem watchHeld_iff (s : State) (writer : Actor) (addrs : List Nat) :
    s.watchHeld writer addrs = true ↔ ∃ w, (s.watch w).refuses writer addrs = true := by
  simp only [State.watchHeld, List.any_eq_true, mem_watchIds, true_and]

/-- Settles O32: a write is held by some channel or some watch, each by its own condition. -/
theorem holdsOfWrites : Obligations.HoldsOfWrites := by
  intro s writer addrs
  refine ⟨?_, ?_⟩
  · simp only [runHeld_iff, runHolds_iff]
  · refine (watchHeld_iff s writer addrs).trans (exists_congr fun w => (refuses_iff _ writer addrs).trans ?_)
    cases writer <;> exact Iff.rfl

end Sys2Proof.Ranges
end

section
/-! SUPPORT. The watch requests (4.3 and 4.4): what their operands name, SET_WATCH's checks and the watch it leaves, the
subscriber sets, and the two statements about them. -/

namespace Sys2Proof.WatchRequests

open Sys2Proof Sys2Proof.Machine Sys2Proof.Claims Sys2Proof.AnchorsAndCursors

/-! ### Sets of ports -/

theorem getLsbD_add (set : BitVec 4) (p q : PortId) :
    (set ||| single p.val).getLsbD q.val = (set.getLsbD q.val || q == p) := by
  rw [BitVec.getLsbD_or, getLsbD_single, Bool.beq_comm, Bool.beq_eq_decide_eq]

theorem getLsbD_remove (set : BitVec 4) (p q : PortId) :
    (set &&& ~~~(single p.val)).getLsbD q.val = (set.getLsbD q.val && q != p) := by
  rw [BitVec.getLsbD_and, Presence.getLsbD_others, bne, Bool.beq_eq_decide_eq, decide_not]

/-! ### What the operands name (Tables 9-2 and 9-3) -/

theorem index?_eq_some {n : Nat} {b : Byte} (h : b.toNat < n) : index? n b = some ⟨b.toNat, h⟩ := dif_pos h

theorem val_of_index? {n : Nat} {b : Byte} {i : Fin n} (h : index? n b = some i) : i.val = b.toNat := by
  unfold index? at h
  split at h
  · cases h
    rfl
  · cases h

theorem width?_bytes (w : Width) : width? (BitVec.ofNat 8 w.bytes) = some w := by
  cases w <;> rfl

/-- The bytes that name a width are 1, 2 and 4, and each is that width. -/
theorem width?_eq_some_iff (b : Byte) (w : Width) :
    width? b = some w ↔ (b = 1 ∨ b = 2 ∨ b = 4) ∧ b.toNat = w.bytes := by
  revert b
  cases w <;> decide

theorem condition?_code (c : Condition) : condition? (BitVec.ofNat 8 c.code) = some c := by
  cases c <;> rfl

theorem condition?_isSome_iff (b : Byte) : (condition? b).isSome = true ↔ b.toNat < 4 := by
  revert b
  decide

theorem trigger?_code (t : Option ChannelId) : trigger? (BitVec.ofNat 8 (triggerCode t)) = some t := by
  revert t
  decide

theorem trigger?_isSome_iff (b : Byte) : (trigger? b).isSome = true ↔ b.toNat < 5 := by
  revert b
  decide

/-! ### The checks of SET_WATCH (R60) -/

/-- The bytes that name a watch, a width, a condition and a trigger name these. -/
structure Names (b : WatchBytes) (w : WatchId) (width : Width) (condition : Condition) (trigger : Option ChannelId) :
    Prop where
  watch : index? 16 b.watch = some w
  width : width? b.width = some width
  condition : condition? b.condition = some condition
  trigger : trigger? b.trigger = some trigger

/-- The other parameters are in their ranges, for a compare word of `size` bytes (R60). -/
structure Admitted (b : WatchBytes) (size : Nat) : Prop where
  start : b.start.toNat < 32768
  stop : b.stop.toNat < 32768
  word : b.start.toNat + size ≤ 32768
  compares : b.kinds.getLsbD 2 = true → b.stop.toNat < b.start.toNat ∨ b.start.toNat + size ≤ b.stop.toNat + 1
  reference : b.reference.toNat < 256 ^ size
  quietLimit : 1 ≤ b.quietLimit.toNat
  priority : 1 ≤ b.priority.toNat ∧ b.priority.toNat ≤ 7

/-- The configuration that the parameters carry (Table 9-2). -/
def carried (b : WatchBytes) (width : Width) (condition : Condition) (trigger : Option ChannelId) : WatchConfig where
  enabled := b.flags.getLsbD 0
  start := b.start.toNat
  stop := b.stop.toNat
  kinds := b.kinds.setWidth 4
  hold := b.flags.getLsbD 1
  permit := b.permit
  width := width
  condition := condition
  reference := b.reference.toNat
  mode := if b.flags.getLsbD 3 = true then .level else .edge
  quietLimit := b.quietLimit.toNat
  priority := b.priority.toNat
  excludeWriter := b.flags.getLsbD 2
  trigger := trigger

/-- A compare word lies in a range that does not wrap when it ends within it; in one that wraps it always lies, since it
begins at the range's start. -/
theorem wordInside_iff (start stop : Nat) {size : Nat} (h : 0 < size) :
    wordInside start stop size = true ↔ stop < start ∨ start + size ≤ stop + 1 := by
  simp only [wordInside, span, List.all_eq_true, List.mem_range'_1, Ranges.inRange_iff]
  constructor
  · intro hall
    have hlast := hall (start + size - 1) (by omega)
    omega
  · intro hin a ha
    omega

theorem width_bytes_pos (w : Width) : 0 < w.bytes := by
  cases w <;> decide

section Checks

variable {b : WatchBytes} {w : WatchId} {width : Width} {condition : Condition} {trigger : Option ChannelId}
  {x : WatchId × WatchConfig}

/-- Parameters that name their entries pass the other checks exactly when they are in their ranges. -/
theorem watchConfig?_eq_some_iff (h : Names b w width condition trigger) :
    watchConfig? b = some x ↔ Admitted b width.bytes ∧ x = (w, carried b width condition trigger) := by
  have hword := wordInside_iff b.start.toNat b.stop.toNat (width_bytes_pos width)
  simp only [watchConfig?, h.watch, h.width, h.condition, h.trigger, hword, Config.arraySize]
  split_ifs with hrange hend hcompare hreference hquiet hpriority
  · exact iff_of_false id (fun ⟨ha, _⟩ => by have := ha.start; have := ha.stop; omega)
  · exact iff_of_false id (fun ⟨ha, _⟩ => by have := ha.word; omega)
  · exact iff_of_false id (fun ⟨ha, _⟩ => hcompare.2 (ha.compares hcompare.1))
  · exact iff_of_false id (fun ⟨ha, _⟩ => absurd ha.reference (Nat.not_lt.mpr hreference))
  · exact iff_of_false id (fun ⟨ha, _⟩ => by have := ha.quietLimit; omega)
  · exact iff_of_false id (fun ⟨ha, _⟩ => by have := ha.priority; omega)
  · have ha : Admitted b width.bytes :=
      ⟨by omega, by omega, by omega, fun hk => by_contra fun hn => hcompare ⟨hk, hn⟩, Nat.not_le.mp hreference,
        by omega, by omega⟩
    rw [Option.some.injEq, eq_comm]
    exact (and_iff_right ha).symm

theorem names_of_watchConfig? (h : watchConfig? b = some x) :
    ∃ w width condition trigger, Names b w width condition trigger := by
  unfold watchConfig? at h
  split at h
  · next hw hwidth hcondition htrigger => exact ⟨_, _, _, _, hw, hwidth, hcondition, htrigger⟩
  · cases h

/-- Every parameter of a SET_WATCH is in its range (R60). -/
structure InRanges (b : WatchBytes) : Prop where
  watch : b.watch.toNat < 16
  width : b.width = 1 ∨ b.width = 2 ∨ b.width = 4
  condition : b.condition.toNat < 4
  trigger : b.trigger.toNat < 5
  admitted : Admitted b b.width.toNat

theorem exists_names (h : InRanges b) :
    ∃ w width condition trigger, Names b w width condition trigger ∧ width.bytes = b.width.toNat := by
  obtain ⟨width, hwidth⟩ : ∃ width : Width, b.width.toNat = width.bytes := by
    obtain hw | hw | hw := h.width <;> rw [hw]
    · exact ⟨.one, rfl⟩
    · exact ⟨.two, rfl⟩
    · exact ⟨.four, rfl⟩
  obtain ⟨condition, hcondition⟩ := Option.isSome_iff_exists.mp ((condition?_isSome_iff _).mpr h.condition)
  obtain ⟨trigger, htrigger⟩ := Option.isSome_iff_exists.mp ((trigger?_isSome_iff _).mpr h.trigger)
  exact ⟨_, width, condition, trigger,
    ⟨index?_eq_some h.watch, (width?_eq_some_iff _ _).mpr ⟨h.width, hwidth⟩, hcondition, htrigger⟩, hwidth.symm⟩

theorem watchConfig?_of_inRanges (h : InRanges b) :
    ∃ w c, watchConfig? b = some (w, c) ∧ w.val = b.watch.toNat := by
  obtain ⟨w, width, condition, trigger, hn, hsize⟩ := exists_names h
  exact ⟨w, _, (watchConfig?_eq_some_iff hn).mpr ⟨hsize ▸ h.admitted, rfl⟩, val_of_index? hn.watch⟩

theorem inRanges_of_watchConfig? (h : watchConfig? b = some x) : InRanges b := by
  obtain ⟨w, width, condition, trigger, hn⟩ := names_of_watchConfig? h
  obtain ⟨ha, -⟩ := (watchConfig?_eq_some_iff hn).mp h
  obtain ⟨hbyte, hsize⟩ := (width?_eq_some_iff _ _).mp hn.width
  exact ⟨val_of_index? hn.watch ▸ w.isLt, hbyte, (condition?_isSome_iff _).mp (hn.condition ▸ rfl),
    (trigger?_isSome_iff _).mp (hn.trigger ▸ rfl), hsize ▸ ha⟩

/-- The first check of SET_WATCH fails exactly where some parameter is out of its range. -/
theorem watchConfig?_eq_none_iff : watchConfig? b = none ↔ ¬ InRanges b := by
  constructor
  · intro hnone h
    obtain ⟨w, c, hsome, -⟩ := watchConfig?_of_inRanges h
    rw [hnone] at hsome
    cases hsome
  · intro h
    exact Option.eq_none_iff_forall_ne_some.mpr (fun x hx => h (inRanges_of_watchConfig? hx))

end Checks

/-! ### The requests at their frame ends -/

section AtFrameEnd

variable {s : State} {f : Frame} {code : Byte} {r : Request} {n : Nat}

/-- A watch request refused: it changes no watch. -/
theorem watchFrame_refused {c : ResultCode} (h : s.serves f.port) (hb : f.bits = 8 * n)
    (he : expectedLength code 0 = some n) (hx : applyRequest f.port r (s.taken f) = .answer (s.taken f) c) :
    requestFrame f code .request r s = .next (s.answered f c []) :=
  requestFrame_no_effect h hb he FrameKind.noConfusion FrameKind.noConfusion hx

/-- A watch request performed: it replaces one watch. -/
theorem watchFrame_sets {w : WatchId} {e : Watch} (h : s.serves f.port) (hb : f.bits = 8 * n)
    (he : expectedLength code 0 = some n)
    (hx : applyRequest f.port r (s.taken f) = .done ((s.taken f).setWatch w e)) :
    requestFrame f code .request r s = .next ((s.setWatch w e).answered f .done []) := by
  rw [← complete_setWatch_taken]
  exact requestFrame_answers h hb he FrameKind.noConfusion FrameKind.noConfusion hx

end AtFrameEnd

/-! ### SUBSCRIBE and UNSUBSCRIBE (R63, R64) -/

section Subscriptions

variable (p : PortId) (s : State) {n : Byte}

theorem applySubscribe_badNumber (h : 16 ≤ n.toNat) : applySubscribe p n s = .answer s .badParameter := by
  simp only [applySubscribe, index?_eq_none h]

theorem applyUnsubscribe_badNumber (h : 16 ≤ n.toNat) : applyUnsubscribe p n s = .answer s .badParameter := by
  simp only [applyUnsubscribe, index?_eq_none h]

theorem applySubscribe_named (w : WatchId) :
    applySubscribe p (BitVec.ofNat 8 w.val) s =
      if (s.watch w).owner = .free then .answer s .badParameter
      else .done (s.setWatch w { s.watch w with subscribers := (s.watch w).subscribers ||| single p.val }) := by
  simp only [applySubscribe, index?_ofNat (n := 16) (by decide)]

theorem applyUnsubscribe_named (w : WatchId) :
    applyUnsubscribe p (BitVec.ofNat 8 w.val) s =
      if (s.watch w).owner = .free then .answer s .badParameter
      else .done (s.setWatch w { s.watch w with subscribers := (s.watch w).subscribers &&& ~~~(single p.val) }) := by
  simp only [applyUnsubscribe, index?_ofNat (n := 16) (by decide)]

end Subscriptions

/-- Settles O24: the outcomes of the two requests, taken to their frame ends. -/
theorem subscriptionsOfRequester : Obligations.SubscriptionsOfRequester := by
  refine fun f s hs hb => ⟨fun n hn => ⟨?_, ?_⟩, fun w => ⟨fun ho => ⟨?_, ?_⟩, fun ho => ⟨?_, ?_⟩⟩⟩
  · exact watchFrame_refused hs hb rfl (applySubscribe_badNumber _ _ hn)
  · exact watchFrame_refused hs hb rfl (applyUnsubscribe_badNumber _ _ hn)
  · exact watchFrame_refused hs hb rfl ((applySubscribe_named _ _ w).trans (if_pos ho))
  · exact watchFrame_refused hs hb rfl ((applyUnsubscribe_named _ _ w).trans (if_pos ho))
  · exact ⟨_, getLsbD_add _ f.port,
      watchFrame_sets hs hb rfl ((applySubscribe_named f.port (s.taken f) w).trans (if_neg ho))⟩
  · exact ⟨_, getLsbD_remove _ f.port,
      watchFrame_sets hs hb rfl ((applyUnsubscribe_named f.port (s.taken f) w).trans (if_neg ho))⟩

/-! ### SET_WATCH (R60 to R62) -/

section SetWatch

variable {p : PortId} {b : WatchBytes} {s : State} {w : WatchId} {c : WatchConfig}

theorem applySetWatch_badParameter (h : watchConfig? b = none) : applySetWatch p b s = .answer s .badParameter := by
  simp only [applySetWatch, h]

theorem applySetWatch_notOwner (h : watchConfig? b = some (w, c)) (ho : (s.watch w).owner ≠ .owned p) :
    applySetWatch p b s = .answer s .notOwner := by
  simp only [applySetWatch, h, if_pos ho]

theorem applySetWatch_sets (h : watchConfig? b = some (w, c)) (ho : (s.watch w).owner = .owned p) :
    applySetWatch p b s = .done (s.setWatch w ((s.watch w).setTo c s.array)) := by
  simp only [applySetWatch, h, if_neg (not_not_intro ho)]

end SetWatch

/-- The watch after a SET_WATCH that passes its checks (R61, R62). -/
theorem setTo_carried (e : Watch) (b : WatchBytes) (width : Width) (condition : Condition)
    (trigger : Option ChannelId) (m : Memory) :
    e.setTo (carried b width condition trigger) m =
      { e with
        config := carried b width condition trigger
        hits := 0
        lastOutcome := b.flags.getLsbD 0 &&
          condition.holds (valueAt m b.start.toNat width.bytes) b.reference.toNat
        quiet := if b.flags.getLsbD 0 = true ∧ b.kinds.getLsbD 3 = true then .running else .stopped
        countdown := if b.flags.getLsbD 0 = true ∧ b.kinds.getLsbD 3 = true then b.quietLimit.toNat else 0 } := by
  have hk : (carried b width condition trigger).hasQuiet = b.kinds.getLsbD 3 := by
    simp [WatchConfig.hasQuiet, carried]
  have he : (carried b width condition trigger).enabled = b.flags.getLsbD 0 := rfl
  simp only [Watch.setTo, hk, he, Bool.and_eq_true]
  rfl

/-- Settles O23: a SET_WATCH sets the watch where the parameters are in their ranges and the port owns it; else it is
refused by the first check that fails. -/
theorem setWatchReplacesConfiguration : Obligations.SetWatchReplacesConfiguration := by
  refine ⟨fun f w b width condition trigger s hs hb ho hw hwidth hcondition htrigger hstart hstop hend hcompare
      hreference hquiet hlow hhigh => ?sets,
    fun f b s hs hb => ⟨fun hbad => ?badParameter,
      fun hw hstart hstop hwidth hend hcompare hcondition hreference hquiet hlow hhigh htrigger ho => ?notOwner⟩⟩
  case sets =>
    have hn : Names b w width condition trigger :=
      ⟨hw ▸ index?_ofNat (by decide) w, hwidth ▸ width?_bytes width, hcondition ▸ condition?_code condition,
        htrigger ▸ trigger?_code trigger⟩
    have hc := (watchConfig?_eq_some_iff hn).mpr
      ⟨⟨hstart, hstop, hend, hcompare, hreference, hquiet, hlow, hhigh⟩, rfl⟩
    have hx := applySetWatch_sets (s := s.taken f) hc ho
    rw [setTo_carried] at hx
    exact watchFrame_sets hs hb rfl hx
  case badParameter =>
    refine watchFrame_refused hs hb rfl (applySetWatch_badParameter (watchConfig?_eq_none_iff.mpr ?_))
    rintro ⟨hw, hwidth, hcondition, htrigger,
      ⟨hstart, hstop, hend, hcompare, hreference, hquiet, hlow, hhigh⟩⟩
    obtain h | h | h | h | h | h | h | h | h | h | h | h := hbad
    · omega
    · omega
    · omega
    · tauto
    · omega
    · have := hcompare h.1
      omega
    · omega
    · exact absurd hreference (Nat.not_lt.mpr h)
    all_goals omega
  case notOwner =>
    obtain ⟨w, c, hc, hval⟩ := watchConfig?_of_inRanges
      ⟨hw, hwidth, hcondition, htrigger,
        ⟨hstart, hstop, hend, hcompare, hreference, hquiet, hlow, Nat.le_of_lt_succ hhigh⟩⟩
    exact watchFrame_refused hs hb rfl (applySetWatch_notOwner hc (ho w hval))

end Sys2Proof.WatchRequests
end

section
/-! SUPPORT. A presentation matched (4.6 to 4.10), in the words of the statements: the kind set, the indication and its
audience, the watch it leaves and the channel it triggers; and the two statements about matching. -/

namespace Sys2Proof.Matching

open Sys2Proof Sys2Proof.Machine Sys2Proof.Claims Sys2Proof.Ranges Sys2Proof.WatchRequests

/-! ### The kind set and the indication (R71, R73, R75) -/

section Indication

variable (e : Watch) (pr : Presentation) (m : Memory)

/-- A write of the presentation touches the compare word (R74). -/
abbrev ReachesWord (c : WatchConfig) (pr : Presentation) : Prop :=
  pr.write = true ∧ ∃ a ∈ pr.addrs, c.start ≤ a ∧ a < c.start + c.width.bytes

theorem reachesWord_iff (c : WatchConfig) : pr.reachesWord c = true ↔ ReachesWord c pr := by
  simp only [Presentation.reachesWord, Bool.and_eq_true, touchesBlock_iff]

theorem touchesRange_iff (c : WatchConfig) : pr.touchesRange c = true ↔ touchesWatch c pr.addrs :=
  touches_iff c pr.addrs

theorem fires_iff (mode : CompareMode) (before after : Bool) :
    mode.fires before after = true ↔ after = true ∧ (mode = .level ∨ before = false) := by
  cases mode <;> simp [CompareMode.fires]

/-- The outcome of evaluating the compare word, from the value of its bytes (R59). -/
theorem outcome_eq (c : WatchConfig) :
    c.outcome m = c.condition.holds (valueAt m c.start c.width.bytes) c.reference := rfl

theorem comparesOn_iff :
    pr.comparesOn e m = true ↔
      pr.write = true ∧ e.config.kinds.getLsbD 2 = true ∧
        (∃ a ∈ pr.addrs, e.config.start ≤ a ∧ a < e.config.start + e.config.width.bytes) ∧
        e.config.condition.holds (valueAt m e.config.start e.config.width.bytes) e.config.reference = true ∧
        (e.config.mode = .level ∨ e.lastOutcome = false) := by
  simp only [Presentation.comparesOn, WatchConfig.hasCompare, Bool.and_eq_true, reachesWord_iff, fires_iff,
    outcome_eq]
  tauto

theorem kinds_eq_kindSet : pr.kinds e m = kindSet pr e m := by
  have halter : (e.config.hasAlter && pr.write) = true ↔ pr.write = true ∧ e.config.kinds.getLsbD 0 = true := by
    rw [Bool.and_eq_true, and_comm]
    rfl
  have hread : (e.config.hasRead && !pr.write) = true ↔ pr.write = false ∧ e.config.kinds.getLsbD 1 = true := by
    rw [Bool.and_eq_true, and_comm, Bool.not_eq_true']
    rfl
  simp only [Presentation.kinds, kindSet, halter, hread, comparesOn_iff]
  rfl

/-- The kind set is empty but for an indication (R70, R72). -/
theorem kindsFor_eq : e.kindsFor pr m = if indicates pr e m then kindSet pr e m else 0 := by
  have hb : (e.config.enabled && pr.touchesRange e.config) = true ↔
      e.config.enabled = true ∧ touchesWatch e.config pr.addrs := by
    rw [Bool.and_eq_true, touchesRange_iff]
  simp only [Watch.kindsFor, hb, kinds_eq_kindSet]
  by_cases hk : kindSet pr e m = 0
  · simp [hk]
  · simp only [indicates, hk, ne_eq, not_false_eq_true, and_true]

theorem kindsFor_ne_zero_iff : e.kindsFor pr m ≠ 0 ↔ indicates pr e m := by
  rw [kindsFor_eq]
  split
  · next h => exact iff_of_true h.2.2 h
  · next h => exact iff_of_false (fun h0 => h0 rfl) h

variable {e pr m}

theorem kindsFor_of_indicates (h : indicates pr e m) : e.kindsFor pr m = kindSet pr e m := by
  rw [kindsFor_eq, if_pos h]

theorem indication_eq_watchNotice (w : WatchId) : e.indication w pr (kindSet pr e m) m = watchNotice w pr e m := rfl

/-- The notified subscribers: exclude writer leaves out the port that acted (R73). -/
theorem audience_iff (e : Watch) (actor : Actor) (q : PortId) :
    (e.audience actor).getLsbD q.val = true ↔ hears q e actor := by
  cases actor with
  | channel k => simp [Watch.audience, hears]
  | port p =>
    cases hx : e.config.excludeWriter with
    | false => simp [Watch.audience, hears, hx]
    | true =>
      simp only [Watch.audience, hx, if_true, getLsbD_remove, Bool.and_eq_true, bne_iff_ne, hears, true_and,
        Actor.port.injEq, ne_comm (a := q), ne_eq]

end Indication

/-! ### The watch, the port and the channel after it -/

section Effects

variable (e : Watch) (pr : Presentation) (m : Memory)

theorem evaluate_eq :
    e.evaluate pr m =
      { e with
        lastOutcome :=
          if ReachesWord e.config pr then
            e.config.condition.holds (valueAt m e.config.start e.config.width.bytes) e.config.reference
          else e.lastOutcome } := by
  simp only [Watch.evaluate, reachesWord_iff]
  split <;> rfl

/-- A write touches the range of a watch that has QUIET among its kinds (R76). -/
abbrev Reloads (e : Watch) (pr : Presentation) : Prop :=
  pr.write = true ∧ touchesWatch e.config pr.addrs ∧ e.config.kinds.getLsbD 3 = true

theorem reload_eq :
    e.reload pr =
      { e with
        quiet := if Reloads e pr then .running else e.quiet
        countdown := if Reloads e pr then e.config.quietLimit else e.countdown } := by
  have hr : (pr.write && pr.touchesRange e.config && e.config.hasQuiet) = true ↔ Reloads e pr := by
    rw [Bool.and_eq_true, Bool.and_eq_true, touchesRange_iff, and_assoc]
    rfl
  simp only [Watch.reload, hr]
  split <;> rfl

theorem matched_disabled (h : e.config.enabled = false) : e.matched pr m = e := by
  rw [Watch.matched, if_neg (Bool.eq_false_iff.mp h)]

theorem matched_enabled (h : e.config.enabled = true) :
    e.matched pr m =
      { e with
        hits := if indicates pr e m then countUp 65535 e.hits else e.hits
        lastOutcome :=
          if ReachesWord e.config pr then
            e.config.condition.holds (valueAt m e.config.start e.config.width.bytes) e.config.reference
          else e.lastOutcome
        quiet := if Reloads e pr then .running else e.quiet
        countdown := if Reloads e pr then e.config.quietLimit else e.countdown } := by
  rw [Watch.matched, if_pos h, evaluate_eq, reload_eq]
  by_cases hi : indicates pr e m
  · rw [if_neg ((kindsFor_ne_zero_iff e pr m).mpr hi), if_pos hi]
    rfl
  · rw [if_pos (not_not.mp (mt (kindsFor_ne_zero_iff e pr m).mp hi)), if_neg hi]

theorem afterMatch_eq (q : PortId) (w : WatchId) (x : Port) :
    x.afterMatch q w e pr m =
      if indicates pr e m ∧ hears q e pr.actor then x.post (watchNotice w pr e m) else x := by
  simp only [Port.afterMatch, kindsFor_ne_zero_iff, audience_iff]
  split
  · next h => rw [kindsFor_of_indicates h.1, indication_eq_watchNotice]
  · rfl

/-- The channel that a watch's indication triggers: the one it names, for ALTER or COMPARE, unless that channel is the
actor (R77). -/
theorem triggers_iff (k : ChannelId) :
    e.triggers pr m = some k ↔
      indicates pr e m ∧ kindSet pr e m &&& 5 ≠ 0 ∧ e.config.trigger = some k ∧ pr.actor ≠ .channel k := by
  have hm : kindAlter ||| kindCompare = 5 := rfl
  by_cases hi : indicates pr e m
  · rw [Watch.triggers, if_pos ((kindsFor_ne_zero_iff e pr m).mpr hi), kindsFor_of_indicates hi, Watch.triggerFor, hm]
    cases ht : e.config.trigger with
    | none => simp
    | some j =>
      simp only [Option.some.injEq, Option.ite_none_right_eq_some]
      constructor
      · rintro ⟨⟨hk, ha⟩, rfl⟩
        exact ⟨hi, hk, rfl, ha⟩
      · rintro ⟨-, hk, rfl, ha⟩
        exact ⟨⟨hk, ha⟩, rfl⟩
  · rw [Watch.triggers, if_neg (mt (kindsFor_ne_zero_iff e pr m).mp hi)]
    exact iff_of_false nofun (fun h => hi h.1)

end Effects

/-! ### The statements -/

theorem sameOutside_symm {s t : State} (h : s.sameOutside t) : t.sameOutside s := by
  unfold State.sameOutside at *
  rw [← h]

/-- Settles O33: the enabled watches are matched, one field at a time, and the others stand. -/
theorem matchingUpdatesWatches : Obligations.MatchingUpdatesWatches := by
  intro s pr
  obtain ⟨hout, hwatch, -⟩ := matchAll_spec s pr
  refine ⟨fun w e he => ?_, ?_⟩
  · subst he
    rw [hwatch w]
    exact ⟨matched_disabled _ pr s.array, matched_enabled _ pr s.array⟩
  · exact sameOutside_symm hout

theorem watchIds_eq_finRange : watchIds = List.finRange 16 := by decide

/-- Settles O34: each watch posts its own notice, in ascending number, and a channel is triggered where some watch
triggers it. -/
theorem matchingPostsAndTriggers : Obligations.MatchingPostsAndTriggers := by
  refine ⟨fun s pr q => ?posts, fun s pr k e hk => ⟨?triggered, ?stands⟩⟩
  case posts =>
    obtain ⟨-, -, hport⟩ := matchAll_spec s pr
    simp only [hport, afterMatch_eq, watchIds_eq_finRange]
  case triggered =>
    rintro ⟨w, hw⟩
    have ht : ∃ w, (s.watch w).triggers pr s.array = some k := ⟨w, (triggers_iff _ pr s.array k).mpr hw⟩
    rw [matchAll_channel, if_pos ht, hk]
    unfold Channel.trigger
    cases e.phase <;> rfl
  case stands =>
    intro h
    have ht : ¬ ∃ w, (s.watch w).triggers pr s.array = some k := by
      rintro ⟨w, hw⟩
      obtain ⟨hi, hkinds, hnames, hactor⟩ := (triggers_iff _ pr s.array k).mp hw
      exact hactor (h w hi hkinds hnames)
    rw [matchAll_channel, if_neg ht, hk]

end Sys2Proof.Matching
end

section
/-! SUPPORT. Quiet timing (chapter 5): a tick counted, a lapse made, and the agreement of every watch's quiet state with
its configuration (R84), which each operation keeps, and so does every step. -/

namespace Sys2Proof.QuietTiming

open Sys2Proof Sys2Proof.Machine Sys2Proof.Claims Sys2Proof.RequestEffects

/-! ### Ticks (R83, R86) -/

/-- Settles O44: where nothing is due, TICK is counted, waits, or is not raised, by the time base and the grant. -/
theorem tickCountsDown : Obligations.TickCountsDown := by
  intro s hs
  have he : exec .tick s =
      .next (if !s.ticking then s else if s.grant.isSome then s.enqueue .tick else s.countTick) := by
    change execTick s = _
    rw [execTick, settle_settled hs]
  refine ⟨fun ht => ?halted, fun ht hg => ?waits, fun ht hg => ?counted⟩
  case halted => rw [he, if_pos (by rw [ht]; rfl)]
  case waits =>
    rw [he, if_neg (by simp [ht]), if_pos hg]
    rfl
  case counted => rw [he, if_neg (by simp [ht]), if_neg (by simp [hg]), DueWork.ticked_eq_countTick]

/-! ### Lapses (R86, R87) -/

/-- The watch that a lapse leaves (R87). -/
def lapsed (e : Watch) : Watch := ({ e with quiet := .lapsed, countdown := 0 } : Watch).hit

/-- The hit and the notices of a lapse, before its trigger (R87, steps 1 to 3). -/
def quietIndication (s : State) (w : WatchId) : State :=
  (s.setWatch w (lapsed (s.watch w))).postTo (s.watch w).subscribers (quietNotice w (s.watch w).config.priority)

theorem nextLapse_due {s : State} {w : WatchId} {rest : List WatchId} (h : s.lapsesDue = w :: rest) :
    s.nextLapse = { s.lapseOf w with lapsesDue := rest } := by
  simp only [State.nextLapse, h]

theorem lapseOf_without_trigger {s : State} {w : WatchId} (h : (s.watch w).config.trigger = none) :
    s.lapseOf w = quietIndication s w := by
  simp only [State.lapseOf, h]
  rfl

/-- The tick has triggered the channel already (R86). -/
theorem lapseOf_triggered {s : State} {w : WatchId} {k : ChannelId} (h : (s.watch w).config.trigger = some k)
    (hk : s.tickTriggered.getLsbD k.val = true) : s.lapseOf w = quietIndication s w := by
  simp only [State.lapseOf, h, triggerOnce_some, if_pos hk]
  rfl

theorem lapseOf_triggers {s : State} {w : WatchId} {k : ChannelId} (h : (s.watch w).config.trigger = some k)
    (hk : s.tickTriggered.getLsbD k.val = false) :
    s.lapseOf w =
      { (quietIndication s w).triggerChannel k with tickTriggered := s.tickTriggered ||| single k.val } := by
  simp only [State.lapseOf, h, triggerOnce_some, if_neg (Bool.eq_false_iff.mp hk)]
  rfl

/-- Settles O45: LAPSE makes the first lapse due, whose trigger is one of three cases. -/
theorem lapseMakesQuietIndication : Obligations.LapseMakesQuietIndication := by
  intro s w rest e hd he
  subst he
  have hx : exec .lapse s = .next { s.lapseOf w with lapsesDue := rest } := by
    rw [← nextLapse_due hd]
    exact DueWork.execLapse_due (hd ▸ List.cons_ne_nil w rest)
  refine ⟨_, rfl, fun ht => ?untriggered, fun k ht => ⟨fun hk => ?already, fun hk => ?triggers⟩⟩
  case untriggered =>
    rw [hx, lapseOf_without_trigger ht]
    rfl
  case already =>
    rw [hx, lapseOf_triggered ht hk]
    rfl
  case triggers =>
    rw [hx, lapseOf_triggers ht hk]
    rfl

/-- A lapse changes its own watch alone. -/
theorem lapseOf_watch (s : State) (w v : WatchId) :
    (s.lapseOf w).watch v = if w = v then lapsed (s.watch w) else s.watch v := by
  rw [← watch_setWatch, ← watch_postTo_frame _ (s.watch w).subscribers (quietNotice w (s.watch w).config.priority)]
  exact triggerOnce_watch (quietIndication s w) s.tickTriggered (s.watch w).config.trigger v

/-! ### One watch -/

/-- The quiet fields of a watch agree with its configuration; `due` says that a lapse of it is still to be made
(R84). -/
structure QuietAt (due : Prop) (e : Watch) : Prop where
  agrees : e.quiet ≠ .stopped ↔ e.config.enabled = true ∧ e.config.hasQuiet = true
  running : e.quiet = .running → e.countdown ≤ e.config.quietLimit ∧ (e.countdown = 0 → due)
  lapsed : e.quiet = .lapsed → e.countdown = 0
  limit : 1 ≤ e.config.quietLimit
  counts : due → e.config.enabled = true ∧ e.config.hasQuiet = true

theorem quietSound_iff (s : State) (w : WatchId) : s.quietSound w ↔ QuietAt (w ∈ s.lapsesDue) (s.watch w) :=
  ⟨fun ⟨ha, hr, hl, hq, hc⟩ => ⟨ha, hr, hl, hq, hc⟩, fun ⟨ha, hr, hl, hq, hc⟩ => ⟨ha, hr, hl, hq, hc⟩⟩

section OneWatch

variable {due : Prop} {e e' : Watch}

theorem QuietAt.of_fields (h : QuietAt due e) (hc : e'.config = e.config) (hq : e'.quiet = e.quiet)
    (hn : e'.countdown = e.countdown) : QuietAt due e' := by
  obtain ⟨ha, hr, hl, hlim, hd⟩ := h
  constructor <;> simp only [hc, hq, hn] <;> assumption

theorem QuietAt.hit (h : QuietAt due e) : QuietAt due e.hit := h.of_fields rfl rfl rfl

theorem QuietAt.leave (h : QuietAt due e) (p : PortId) : QuietAt due (e.leave p) := h.of_fields rfl rfl rfl

theorem QuietAt.orphan (h : QuietAt due e) (p : PortId) : QuietAt due (e.orphan p) := h.of_fields rfl rfl rfl

/-- An enabled watch with QUIET, loaded with its quiet limit (R62, R76). -/
theorem quietAt_loaded (he : e.config.enabled = true) (hk : e.config.hasQuiet = true)
    (hl : 1 ≤ e.config.quietLimit) (hq : e.quiet = .running) (hn : e.countdown = e.config.quietLimit) :
    QuietAt due e := by
  have hs : e.quiet ≠ .stopped := by rw [hq]; exact QuietState.noConfusion
  have hnl : e.quiet ≠ .lapsed := by rw [hq]; exact QuietState.noConfusion
  exact ⟨iff_of_true hs ⟨he, hk⟩, fun _ => ⟨hn.le, fun h0 => absurd h0 (by omega)⟩, fun h => absurd h hnl, hl,
    fun _ => ⟨he, hk⟩⟩

/-- A STOPPED watch, of which no lapse is due (R48, R62). -/
theorem quietAt_stopped (hd : ¬ due) (hc : ¬ (e.config.enabled = true ∧ e.config.hasQuiet = true))
    (hl : 1 ≤ e.config.quietLimit) (hq : e.quiet = .stopped) : QuietAt due e := by
  have hr : e.quiet ≠ .running := by rw [hq]; exact QuietState.noConfusion
  have hnl : e.quiet ≠ .lapsed := by rw [hq]; exact QuietState.noConfusion
  exact ⟨iff_of_false (not_not_intro hq) hc, fun h => absurd h hr, fun h => absurd h hnl, hl, fun h => absurd h hd⟩

theorem quietAt_default (hd : ¬ due) : QuietAt due Watch.default :=
  quietAt_stopped hd (fun h => Bool.noConfusion h.1) le_rfl rfl

/-- A lapse that was due is made (R87). -/
theorem QuietAt.lapse (h : QuietAt due e) (hd : due) (due' : Prop) : QuietAt due' (QuietTiming.lapsed e) :=
  ⟨iff_of_true QuietState.noConfusion (h.counts hd), fun hr => QuietState.noConfusion hr, fun _ => rfl, h.limit,
    fun _ => h.counts hd⟩

theorem counting_iff (e : Watch) : e.counting = true ↔ e.config.enabled = true ∧ e.quiet = .running := by
  simp only [Watch.counting, Bool.and_eq_true, beq_iff_eq]

theorem runsOut_iff (e : Watch) : e.runsOut = true ↔ e.counting = true ∧ e.countdown = 1 := by
  simp only [Watch.runsOut, Bool.and_eq_true, beq_iff_eq]

/-- A tick counted where no lapse is due: the watch whose countdown runs out has its lapse due (R86). -/
theorem QuietAt.count (h : QuietAt due e) (hd : ¬ due) : QuietAt (e.runsOut = true) e.count := by
  by_cases hc : e.counting = true
  · have hrun : e.quiet = .running := ((counting_iff e).mp hc).2
    have hkinds := h.agrees.mp (by rw [hrun]; exact QuietState.noConfusion)
    obtain ⟨hle, hzero⟩ := h.running hrun
    have hpos : e.countdown ≠ 0 := fun h0 => hd (hzero h0)
    have hcount : e.count = { e with countdown := e.countdown - 1 } := if_pos hc
    rw [hcount]
    refine ⟨h.agrees, fun _ => ⟨?_, fun h0 => ?_⟩, fun hl => ?_, h.limit, fun _ => hkinds⟩
    · change e.countdown - 1 ≤ e.config.quietLimit
      omega
    · change e.countdown - 1 = 0 at h0
      exact (runsOut_iff e).mpr ⟨hc, by omega⟩
    · exact QuietState.noConfusion (hrun.symm.trans hl)
  · have hcount : e.count = e := if_neg hc
    rw [hcount]
    refine ⟨h.agrees, fun hr => ?_, h.lapsed, h.limit, fun ho => absurd ((runsOut_iff e).mp ho).1 hc⟩
    have hkinds := h.agrees.mp (by rw [hr]; exact QuietState.noConfusion)
    exact absurd ((counting_iff e).mpr ⟨hkinds.1, hr⟩) hc

/-- The reload of an enabled watch (R76, R85). -/
theorem QuietAt.reload (h : QuietAt due e) (he : e.config.enabled = true) (pr : Presentation) :
    QuietAt due (e.reload pr) := by
  unfold Watch.reload
  split
  · next hr =>
    rw [Bool.and_eq_true] at hr
    exact quietAt_loaded he hr.2 h.limit rfl rfl
  · exact h

theorem QuietAt.evaluate (h : QuietAt due e) (pr : Presentation) (m : Memory) : QuietAt due (e.evaluate pr m) := by
  unfold Watch.evaluate
  split
  · exact h.of_fields rfl rfl rfl
  · exact h

theorem evaluate_config (e : Watch) (pr : Presentation) (m : Memory) : (e.evaluate pr m).config = e.config := by
  unfold Watch.evaluate
  split <;> rfl

theorem QuietAt.matched (h : QuietAt due e) (pr : Presentation) (m : Memory) : QuietAt due (e.matched pr m) := by
  unfold Watch.matched
  split
  · next he =>
    have hr : QuietAt due ((e.evaluate pr m).reload pr) :=
      (h.evaluate pr m).reload (by rwa [evaluate_config]) pr
    split
    · exact hr
    · exact hr.hit
  · exact h

/-- SET_WATCH establishes the agreement (R62). -/
theorem quietAt_setTo (hd : ¬ due) (e : Watch) {c : WatchConfig} (hl : 1 ≤ c.quietLimit) (m : Memory) :
    QuietAt due (e.setTo c m) := by
  cases hk : c.enabled && c.hasQuiet with
  | true =>
    obtain ⟨he, hq⟩ := (Bool.and_eq_true _ _).mp hk
    exact quietAt_loaded he hq hl (if_pos hk) (if_pos hk)
  | false =>
    refine quietAt_stopped hd (fun h => ?_) hl (if_neg (Bool.eq_false_iff.mp hk))
    exact Bool.eq_false_iff.mp hk ((Bool.and_eq_true _ _).mpr h)

/-- RELEASE establishes the agreement (R48). -/
theorem QuietAt.released (h : QuietAt due e) (hd : ¬ due) : QuietAt due e.released :=
  quietAt_stopped hd (fun hc => Bool.noConfusion hc.1) h.limit rfl

/-- The quiet limit of an admitted SET_WATCH is at least 1 (R60). -/
theorem quietLimit_pos {b : WatchBytes} {w : WatchId} {c : WatchConfig} (h : watchConfig? b = some (w, c)) :
    1 ≤ c.quietLimit := by
  obtain ⟨v, width, condition, trigger, hn⟩ := WatchRequests.names_of_watchConfig? h
  obtain ⟨ha, hx⟩ := (WatchRequests.watchConfig?_eq_some_iff hn).mp h
  cases hx
  exact ha.quietLimit

end OneWatch

/-! ### Every watch -/

/-- Every watch agrees with its configuration, `ws` being the watches whose lapse is due. -/
def QuietDue (ws : List WatchId) (s : State) : Prop := ∀ w, QuietAt (w ∈ ws) (s.watch w)

/-- No lapse is due, and every watch agrees with its configuration. -/
def Calm (s : State) : Prop := s.lapsesDue = [] ∧ QuietDue [] s

theorem quietsSound_iff (s : State) : s.quietsSound ↔ QuietDue s.lapsesDue s := forall_congr' (quietSound_iff s)

theorem Calm.quietsSound {s : State} (h : Calm s) : s.quietsSound := by
  obtain ⟨hl, hw⟩ := h
  rw [quietsSound_iff, hl]
  exact hw

/-! ### Ticks and lapses -/

/-- A lapse made is no longer due, and the others stay due. -/
theorem QuietDue.lapseOf {s : State} {w : WatchId} {ws : List WatchId} (h : QuietDue (w :: ws) s) :
    QuietDue ws (s.lapseOf w) := by
  intro v
  rw [lapseOf_watch]
  split
  · exact (h w).lapse List.mem_cons_self _
  · next hv => simpa [Ne.symm hv] using h v

theorem QuietDue.foldLapses {ws : List WatchId} {s : State} (h : QuietDue ws s) :
    QuietDue [] (ws.foldl State.lapseOf s) := by
  induction ws generalizing s with
  | nil => exact h
  | cons w ws ih => exact ih h.lapseOf

theorem calm_finishLapses {s : State} (h : s.quietsSound) : Calm s.finishLapses :=
  ⟨rfl, ((quietsSound_iff s).mp h).foldLapses⟩

theorem quietsSound_nextLapse {s : State} (h : s.quietsSound) : s.nextLapse.quietsSound := by
  rw [quietsSound_iff] at h ⊢
  cases hd : s.lapsesDue with
  | nil =>
    have hn : s.nextLapse = s := by simp only [State.nextLapse, hd]
    rwa [hn]
  | cons w ws =>
    rw [hd] at h
    rw [nextLapse_due hd]
    exact h.lapseOf

/-- A tick counted: the lapses due are those of the countdowns that ran out (R86). -/
theorem Calm.countTick {s : State} (h : Calm s) : s.countTick.quietsSound := by
  rw [quietsSound_iff]
  intro w
  have hw : s.countTick.watch w = (s.watch w).count := tableMap_getElem _ s.watches w.val w.isLt
  have hd : w ∈ s.countTick.lapsesDue ↔ (s.watch w).runsOut = true :=
    List.mem_filter.trans (and_iff_right (mem_watchIds w))
  rw [hw, hd]
  exact (h.2 w).count List.not_mem_nil

section Operations

variable {s t : State}

/-! ### When a change keeps it -/

/-- The watches may change where each keeps its agreement. -/
theorem Calm.of_watches (h : Calm s) (hl : t.lapsesDue = s.lapsesDue)
    (hw : ∀ w, QuietAt (w ∈ ([] : List WatchId)) (s.watch w) → QuietAt (w ∈ ([] : List WatchId)) (t.watch w)) :
    Calm t :=
  ⟨hl.trans h.1, fun w => hw w (h.2 w)⟩

theorem Calm.congr (h : Calm s) (hl : t.lapsesDue = s.lapsesDue) (hw : t.watches = s.watches) : Calm t :=
  h.of_watches hl (fun w hs => by rwa [State.watch, hw])

theorem Calm.setWatch (h : Calm s) {w : WatchId} {e : Watch} (he : QuietAt (w ∈ ([] : List WatchId)) e) :
    Calm (s.setWatch w e) := by
  refine h.of_watches rfl (fun v hv => ?_)
  rw [watch_setWatch]
  split
  · next hw => exact hw ▸ he
  · exact hv

/-- A change of a watch that leaves its configuration, its quiet state and its countdown. -/
theorem Calm.setWatch_aside (h : Calm s) {w : WatchId} {e : Watch} (hc : e.config = (s.watch w).config)
    (hq : e.quiet = (s.watch w).quiet) (hn : e.countdown = (s.watch w).countdown) : Calm (s.setWatch w e) :=
  h.setWatch ((h.2 w).of_fields hc hq hn)

theorem Calm.withArray (h : Calm s) (m : Memory) : Calm { s with array := m } := h

theorem Calm.withGrant (h : Calm s) (g : Option Grant) : Calm { s with grant := g } := h

theorem Calm.withEnginePointer (h : Calm s) (k : ChannelId) : Calm { s with enginePointer := k } := h

theorem Calm.withDeferredOrder (h : Calm s) (ds : List Deferred) : Calm { s with deferredOrder := ds } := h

theorem Calm.advancePointer (h : Calm s) (r : Requester) : Calm (s.advancePointer r) := h

theorem Calm.holdArray (h : Calm s) (p : PortId) (code : ResultCode) (data : List Byte) :
    Calm (s.holdArray p code data) := h

theorem Calm.setChannel (h : Calm s) (k : ChannelId) (e : Channel) : Calm (s.setChannel k e) := h

theorem Calm.setPhase (h : Calm s) (k : ChannelId) (m : Phase) : Calm (s.setPhase k m) := h

/-! ### The copy engine, which changes no watch -/

theorem Calm.postLate (h : Calm s) : Calm s.postLate := h.congr (postLate_lapsesDue s) (postLate_watches s)

theorem Calm.channelReports (h : Calm s) (post : RunEndPost) (k : ChannelId) (e : Channel) (kinds : Byte) :
    Calm (s.channelReports post k e kinds) := by
  cases post with
  | atOnce => exact h
  | afterNext => exact (h.setChannel k _).postLate

theorem Calm.normalRunEnd (h : Calm s) (post : RunEndPost) (k : ChannelId) : Calm (s.normalRunEnd post k) := by
  unfold State.normalRunEnd
  dsimp only
  split
  · exact (h.channelReports post k _ _).setPhase k .idle
  · split
    · exact (h.channelReports post k _ _).setChannel k _
    · exact (h.setChannel k _).setChannel k _

theorem Calm.faultedRunEnd (h : Calm s) (post : RunEndPost) (k : ChannelId) : Calm (s.faultedRunEnd post k) := by
  unfold State.faultedRunEnd
  dsimp only
  split
  · exact (h.channelReports post k _ _).setPhase k .idle
  · exact (h.channelReports post k _ _).setPhase k .armed

theorem Calm.segmentCompletes (h : Calm s) (k : ChannelId) (moved : Option Nat) (post : RunEndPost) :
    Calm (s.segmentCompletes k moved post) := by
  cases moved with
  | none => exact h.faultedRunEnd post k
  | some size =>
    unfold State.segmentCompletes
    dsimp only
    split
    · exact h.setChannel k _
    · exact (h.setChannel k _).normalRunEnd post k

theorem Calm.abort (h : Calm s) (k : ChannelId) : Calm (s.abort k) := by
  unfold State.abort
  dsimp only
  split
  · exact (h.channelReports .atOnce k _ _).setPhase k .idle
  · exact h.setPhase k .idle

theorem Calm.completeAccess (h : Calm s) (post : RunEndPost) : Calm (s.completeAccess post) := by
  unfold State.completeAccess
  split
  · exact h
  · exact h
  · exact (h.withGrant none).segmentCompletes _ _ post

/-! ### Accesses and segments -/

theorem Calm.matchAll (h : Calm s) (pr : Presentation) : Calm (s.matchAll pr) := by
  obtain ⟨hout, hwatch, -⟩ := matchAll_spec s pr
  refine h.of_watches (by rw [← hout]) (fun w hw => ?_)
  rw [hwatch]
  exact hw.matched pr s.array

theorem aside_lapsesDue (h : { t with watches := s.watches, ports := s.ports } = s) : t.lapsesDue = s.lapsesDue := by
  have hl := congrArg State.lapsesDue h
  exact hl

theorem Calm.blockAll (h : Calm s) (writer : Actor) (addrs : List Nat) (address size : Nat) :
    Calm (s.blockAll writer addrs address size) := by
  obtain ⟨hout, hwatch, -⟩ := blockAll_spec s writer addrs address size
  refine h.of_watches (aside_lapsesDue hout) (fun w hw => ?_)
  rw [hwatch]
  split
  · exact hw.hit
  · exact hw

theorem Calm.storeMotion (h : Calm s) (p : PortId) (motion : Option (CursorId × Nat)) :
    Calm (s.storeMotion p motion) := by
  cases motion <;> exact h

theorem Calm.reportNullRef (h : Calm s) (p : PortId) (r : MemoryRequest) : Calm (s.reportNullRef p r) := by
  unfold State.reportNullRef
  split
  · split
    · split <;> exact h
    · exact h
    · exact h
  · exact h
  · exact h

theorem Calm.accessAt (h : Calm s) (p : PortId) (op : MemoryOp) (place : Place) : Calm (s.accessAt p op place) := by
  unfold State.accessAt
  split
  · exact h.holdArray p _ _
  · split
    · exact (h.blockAll _ _ _ _).holdArray p _ _
    · exact (((h.withArray _).storeMotion p place.motion).matchAll _).holdArray p _ _

theorem Calm.beginAccess (h : Calm s) {p : PortId} {r : MemoryRequest} (ht : beginAccess p r s = .next t) :
    Calm t := by
  unfold Machine.beginAccess at ht
  split at ht
  · cases ht
    split
    · exact (h.reportNullRef p r).holdArray p _ _
    · exact h.holdArray p _ _
  · split at ht
    · cases ht
      exact h.accessAt p _ _
    · cases ht

theorem Calm.segmentAt (h : Calm s) (k : ChannelId) : Calm (s.segmentAt k) := by
  unfold State.segmentAt
  dsimp only
  split
  · exact h.withGrant _
  · split
    · exact (h.blockAll _ _ _ _).withGrant _
    · exact (((h.withArray _).matchAll _).matchAll _).withGrant _

theorem Calm.beginSegment (h : Calm s) {k : ChannelId} (ht : beginSegment k s = .next t) : Calm t := by
  unfold Machine.beginSegment at ht
  dsimp only at ht
  split at ht
  · cases ht
    exact (h.withEnginePointer _).segmentAt k
  · cases ht

end Operations

/-! ### Requests -/

/-- A check decides between two outcomes. -/
theorem calm_ite {P : Prop} [Decidable P] {x y : Applied} (hx : Calm x.state) (hy : Calm y.state) :
    Calm (if P then x else y).state := by
  split
  · exact hx
  · exact hy

section Requests

variable {s : State} (h : Calm s) (p : PortId)

include h

theorem Calm.leaveSets : Calm (s.leaveSets p) :=
  h.of_watches rfl (fun w hw => watch_leaveSets s p w ▸ hw.leave p)

theorem Calm.portReset : Calm (s.portReset p) := by
  refine h.of_watches rfl (fun w hw => ?_)
  have ho : (s.portReset p).watch w = (s.watch w).orphan p := tableMap_getElem _ s.watches w.val w.isLt
  rw [ho]
  exact hw.orphan p

theorem Calm.applyTakeNotice (mode : Byte) : Calm (applyTakeNotice p mode s).state := by
  refine calm_ite h ?_
  split
  · exact h
  · exact calm_ite h h

theorem Calm.applyFinishService : Calm (applyFinishService p s).state := by
  unfold Machine.applyFinishService
  dsimp only
  split <;> exact h

theorem Calm.applySetAnchor (b : AnchorBytes) : Calm (applySetAnchor p b s).state := by
  unfold Machine.applySetAnchor
  split
  · exact calm_ite h (calm_ite h (calm_ite h (calm_ite h h)))
  · exact h

theorem Calm.applyBindCursor (cursor anchor : Byte) (offset : Half) :
    Calm (applyBindCursor p cursor anchor offset s).state := by
  unfold Machine.applyBindCursor
  split
  · split
    · exact h
    · exact calm_ite h h
  · exact h

theorem Calm.applyQueryCursor (cursor : Byte) : Calm (applyQueryCursor p cursor s).state := by
  unfold Machine.applyQueryCursor
  split <;> exact h

theorem Calm.applySetWatch (b : WatchBytes) : Calm (applySetWatch p b s).state := by
  unfold Machine.applySetWatch
  split
  · exact h
  · next hc =>
    exact calm_ite h (h.setWatch (quietAt_setTo List.not_mem_nil _ (quietLimit_pos hc) _))

theorem Calm.applySubscribe (watch : Byte) : Calm (applySubscribe p watch s).state := by
  unfold Machine.applySubscribe
  split
  · exact h
  · exact calm_ite h (h.setWatch_aside rfl rfl rfl)

theorem Calm.applyUnsubscribe (watch : Byte) : Calm (applyUnsubscribe p watch s).state := by
  unfold Machine.applyUnsubscribe
  split
  · exact h
  · exact calm_ite h (h.setWatch_aside rfl rfl rfl)

theorem Calm.applySetChannel (b : ChannelBytes) : Calm (applySetChannel p b s).state := by
  unfold Machine.applySetChannel
  split
  · exact h
  · exact calm_ite h (calm_ite h h)

theorem Calm.applyArmChannel (channel : Byte) : Calm (applyArmChannel p channel s).state := by
  unfold Machine.applyArmChannel
  split
  · exact h
  · exact calm_ite h (calm_ite h (calm_ite h h))

theorem Calm.applyStartChannel (channel : Byte) : Calm (applyStartChannel p channel s).state := by
  unfold Machine.applyStartChannel
  split
  · exact h
  · exact calm_ite h (calm_ite h h)

theorem Calm.applyAbortChannel (channel : Byte) : Calm (applyAbortChannel p channel s).state := by
  unfold Machine.applyAbortChannel
  split
  · exact h
  · exact calm_ite h (h.abort _)

theorem Calm.setOwner (x : Entry) (o : Owner) : Calm (s.setOwner x o) := by
  cases x with
  | anchor a => exact h
  | watch w => exact h.setWatch_aside rfl rfl rfl
  | channel k => exact h

theorem Calm.releaseEntry (x : Entry) : Calm (s.releaseEntry x) := by
  cases x with
  | anchor a => exact h
  | watch w => exact h.setWatch ((h.2 w).released List.not_mem_nil)
  | channel k => exact h

theorem Calm.applyClaim (table index : Byte) : Calm (applyClaim p table index s).state := by
  unfold Machine.applyClaim
  split
  · exact h
  · exact calm_ite (h.setOwner _ _) h

theorem Calm.applyAdopt (table index : Byte) : Calm (applyAdopt p table index s).state := by
  unfold Machine.applyAdopt
  split
  · exact h
  · exact calm_ite (h.setOwner _ _) h

theorem Calm.applyRelease (table index : Byte) : Calm (applyRelease p table index s).state := by
  unfold Machine.applyRelease
  split
  · exact h
  · exact calm_ite h (calm_ite h (h.releaseEntry _))

theorem Calm.applyQueryEntry (table index : Byte) : Calm (applyQueryEntry p table index s).state := by
  unfold Machine.applyQueryEntry
  split <;> exact h

theorem Calm.applyRequest (r : Request) : Calm (applyRequest p r s).state := by
  cases r with
  | attach => exact calm_ite (h.leaveSets p) (h.portReset p)
  | detach => exact h.portReset p
  | doze => exact calm_ite h h
  | setLevels threshold wake => exact calm_ite h h
  | clearFlags flags => exact calm_ite h h
  | takeNotice mode => exact h.applyTakeNotice p mode
  | finishService => exact h.applyFinishService p
  | setAnchor a => exact h.applySetAnchor p a
  | bindCursor cursor anchor offset => exact h.applyBindCursor p cursor anchor offset
  | queryCursor cursor => exact h.applyQueryCursor p cursor
  | setWatch w => exact h.applySetWatch p w
  | subscribe watch => exact h.applySubscribe p watch
  | unsubscribe watch => exact h.applyUnsubscribe p watch
  | setChannel c => exact h.applySetChannel p c
  | armChannel channel => exact h.applyArmChannel p channel
  | startChannel channel => exact h.applyStartChannel p channel
  | abortChannel channel => exact h.applyAbortChannel p channel
  | claim table index => exact h.applyClaim p table index
  | adopt table index => exact h.applyAdopt p table index
  | release table index => exact h.applyRelease p table index
  | queryEntry table index => exact h.applyQueryEntry p table index

/-- The completion of the request touches no watch. -/
theorem Calm.applyAndComplete (r : Request) : Calm (s.applyAndComplete p r) := h.applyRequest p r

end Requests

/-! ### What is due before a command -/

section Due

variable {s : State}

theorem Calm.applyDeferred (h : Calm s) (p : PortId) : Calm (s.applyDeferred p) := by
  unfold State.applyDeferred
  split
  · exact h.applyAndComplete p _
  · exact h.applyAndComplete p _
  · exact h

theorem Calm.applyWaiting (h : Calm s) (d : Deferred) : Calm (s.applyWaiting d) := by
  cases d with
  | request p => exact h.applyDeferred p
  | tick => exact calm_finishLapses h.countTick

theorem Calm.foldWaiting (h : Calm s) (ds : List Deferred) : Calm (ds.foldl State.applyWaiting s) :=
  List.foldlRecOn ds _ h (fun _ ht d _ => Calm.applyWaiting ht d)

theorem Calm.applyDeferredUpTo (h : Calm s) (p : PortId) : Calm (s.applyDeferredUpTo p) :=
  ((h.withDeferredOrder _).foldWaiting _).applyDeferred p

theorem Calm.applyDeferredFirst (h : Calm s) (p : PortId) : Calm (s.applyDeferredFirst p) :=
  (h.withDeferredOrder _).applyDeferred p

theorem Calm.afterCompletion (h : Calm s) : Calm s.afterCompletion := by
  unfold State.afterCompletion
  split
  · exact h
  · exact (h.withDeferredOrder []).foldWaiting s.deferredOrder

theorem calm_clearWay (h : s.quietsSound) : Calm s.clearWay := (calm_finishLapses h).afterCompletion

theorem calm_settle (h : s.quietsSound) : Calm s.settle := (calm_finishLapses h).postLate.afterCompletion

end Due

/-! ### Frames -/

section Frames

variable {s t : State}

theorem Calm.wakePort (h : Calm s) (p : PortId) : Calm (s.wakePort p) := by
  unfold State.wakePort
  split <;> exact h

theorem Calm.startFrame (h : Calm s) (p : PortId) : Calm (s.startFrame p) := Calm.wakePort (by exact h) p

theorem Calm.openFrame (h : Calm s) (p : PortId) : Calm (s.openFrame p) := by
  unfold State.openFrame
  split
  · exact h.wakePort p
  · exact h.startFrame p

theorem Calm.decide (h : Calm s) (p : PortId) (tag : Byte) (v : Verdict) {take : State → State}
    (ht : Calm (take s)) : Calm (s.decide p tag v take) := by
  cases v with
  | taken => exact ht
  | _ => exact h

theorem Calm.takeRequest (h : Calm s) (p : PortId) (tag : Byte) (r : Request) : Calm (s.takeRequest p tag r) := by
  unfold State.takeRequest
  split
  · exact Calm.applyAndComplete (s := s.showPending p tag) h p r
  · exact h

theorem Calm.takeMemory (h : Calm s) (p : PortId) (tag : Byte) (r : Except ResultCode MemoryRequest) :
    Calm (s.takeMemory p tag r) := by
  cases r <;> exact h

/-- A frame end, where what takes its request keeps every watch in agreement; without supply no watch changes. -/
theorem quietsSound_frameEnd (h : s.quietsSound) {p : PortId} {bits : Nat} {tag : Byte} {fits : Bool}
    {kind : FrameKind} {take : State → State} (ht : ∀ u, Calm u → Calm (take u))
    (he : frameEnd p bits tag fits kind take s = .next t) : t.quietsSound := by
  unfold Machine.frameEnd at he
  cases he
  split
  · have hc : Calm ((s.settle.openFrame p).closeFrame p bits) := (calm_settle h).openFrame p
    exact (hc.decide p tag _ (ht _ hc)).quietsSound
  · exact h

theorem quietsSound_requestFrame (h : s.quietsSound) {f : Frame} {code : Byte} {kind : FrameKind} {r : Request}
    (he : requestFrame f code kind r s = .next t) : t.quietsSound :=
  quietsSound_frameEnd h (fun _ hu => hu.takeRequest f.port f.tag r) he

theorem quietsSound_memoryFrame (h : s.quietsSound) {f : Frame} {fits : Bool} {target : TargetBytes}
    {op : Option MemoryOp} (he : memoryFrame f fits target op s = .next t) : t.quietsSound :=
  quietsSound_frameEnd h (fun _ hu => hu.takeMemory f.port f.tag _) he

theorem quietsSound_untakenFrame (h : s.quietsSound) {p : PortId} {bits : Nat} {tag : Byte} {fits : Bool}
    {kind : FrameKind} (he : frameEnd p bits tag fits kind id s = .next t) : t.quietsSound :=
  quietsSound_frameEnd h (fun _ hu => hu) he

theorem quietsSound_frameStart (h : s.quietsSound) {p : PortId} (he : execFrameStart p s = .next t) :
    t.quietsSound := by
  unfold execFrameStart at he
  cases he
  split
  · exact ((calm_settle h).startFrame p).quietsSound
  · exact h

end Frames

/-! ### Grants, ticks and lapses as commands -/

section GrantCommands

variable {s t : State}

theorem Calm.andThen {x : Host.Outcome State Fault Refusal} {g : State → State} (hx : ∀ u, x = .next u → Calm (g u))
    (he : andThen x g = .next t) : Calm t := by
  cases x with
  | next u =>
    cases he
    exact hx u rfl
  | fault r => cases he
  | refused r => cases he

theorem Calm.grantMemory (h : Calm s) {after : State → State} (ha : ∀ u, Calm u → Calm (after u))
    (he : grantMemory after s = .next t) : Calm t := by
  unfold Machine.grantMemory at he
  split at he
  · cases he
    exact h.postLate
  · exact Calm.andThen (fun u hu => ha _ ((h.advancePointer _).beginAccess hu).postLate) he

theorem Calm.grantSegment (h : Calm s) {after : State → State} (ha : ∀ u, Calm u → Calm (after u))
    (he : grantSegment after s = .next t) : Calm t := by
  unfold Machine.grantSegment at he
  split at he
  · cases he
    exact h.postLate
  · exact Calm.andThen (fun u hu => ha _ ((h.advancePointer 4).beginSegment hu).postLate) he

theorem calm_memoryGrant (h : s.quietsSound) {span : GrantSpan} (he : execMemoryGrant span s = .next t) : Calm t := by
  cases span with
  | whole => exact (calm_clearWay h).grantMemory (fun _ hu => hu.completeAccess _) he
  | begins => exact (calm_clearWay h).grantMemory (fun _ hu => hu) he
  | ends =>
    cases he
    unfold State.endMemory
    split
    · exact (calm_settle h).completeAccess _
    · exact calm_settle h

theorem calm_segmentGrant (h : s.quietsSound) {span : SegmentSpan} (he : execSegmentGrant span s = .next t) :
    Calm t := by
  cases span with
  | whole post => exact (calm_clearWay h).grantSegment (fun _ hu => hu.completeAccess _) he
  | begins => exact (calm_clearWay h).grantSegment (fun _ hu => hu) he
  | ends post =>
    cases he
    unfold State.endSegment
    split
    · exact (calm_settle h).completeAccess _
    · exact calm_settle h

theorem calm_deferredRequestApply (h : s.quietsSound) {p : PortId} (he : execDeferredRequestApply p s = .next t) :
    Calm t := by
  unfold execDeferredRequestApply at he
  split at he
  · cases he
    exact ((calm_finishLapses h).completeAccess _).applyDeferredUpTo p
  · cases he
    exact calm_settle h

theorem calm_abortAfterSegment (h : s.quietsSound) {p : PortId} (he : execAbortAfterSegment p s = .next t) :
    Calm t := by
  unfold execAbortAfterSegment at he
  split at he
  · cases he
    exact ((calm_finishLapses h).completeAccess _).applyDeferredFirst p
  · cases he
    exact calm_settle h

theorem quietsSound_tick (h : s.quietsSound) (he : execTick s = .next t) : t.quietsSound := by
  have hs : Calm s.settle := calm_settle h
  unfold execTick at he
  cases he
  split
  · exact hs.quietsSound
  · split
    · exact hs.quietsSound
    · exact hs.countTick

theorem quietsSound_lapse (h : s.quietsSound) (he : execLapse s = .next t) : t.quietsSound := by
  unfold execLapse at he
  cases he
  split
  · exact (calm_settle h).quietsSound
  · exact quietsSound_nextLapse h

end GrantCommands

/-! ### Power and device reset (R57, R91) -/

section Device

variable {s t : State}

theorem calm_of_reset (hl : t.lapsesDue = []) (hw : t.watches = State.reset.watches) : Calm t := by
  refine ⟨hl, fun w => ?_⟩
  have hd : t.watch w = Watch.default := by simp [State.watch, hw, State.reset]
  rw [hd]
  exact quietAt_default List.not_mem_nil

theorem calm_powerOn (s : State) : Calm s.powerOn := calm_of_reset rfl rfl

theorem calm_deviceReset (s : State) : Calm s.deviceReset := calm_of_reset rfl rfl

theorem quietsSound_fillEnd (h : s.quietsSound) (he : execFillEnd s = .next t) : t.quietsSound := by
  unfold execFillEnd at he
  cases he
  split <;> exact h

theorem quietsSound_nresetAssertion (h : s.quietsSound) (he : execNresetAssertion s = .next t) : t.quietsSound := by
  unfold execNresetAssertion at he
  cases he
  split
  · exact h
  · split
    · exact (calm_deviceReset s).quietsSound
    · exact h

theorem quietsSound_nresetRelease (h : s.quietsSound) (he : execNresetRelease s = .next t) : t.quietsSound := by
  unfold execNresetRelease at he
  cases he
  split
  · exact h
  · split
    · exact h
    · split <;> exact h

end Device

/-! ### Every command -/

theorem quietsSound_exec {s t : State} (h : s.quietsSound) {i : Instr} (he : exec i s = .next t) : t.quietsSound := by
  cases hr : requestOf i with
  | some x =>
    obtain ⟨f, code, r⟩ := x
    exact quietsSound_requestFrame h ((exec_of_requestOf hr s).symm.trans he)
  | none =>
    cases i
    case powerOnReset =>
      cases he
      exact (calm_powerOn s).quietsSound
    case fillEnd => exact quietsSound_fillEnd h he
    case nresetAssertion => exact quietsSound_nresetAssertion h he
    case nresetRelease => exact quietsSound_nresetRelease h he
    case frameStart p => exact quietsSound_frameStart h he
    case emptyFrame p => exact quietsSound_untakenFrame h he
    case nop p bits => exact quietsSound_untakenFrame h he
    case unknownCode f code => exact quietsSound_untakenFrame h he
    case read f target size => exact quietsSound_memoryFrame h he
    case write f target size data => exact quietsSound_memoryFrame h he
    case exchange f target width expected new => exact quietsSound_memoryFrame h he
    case fetchAdd f target width addend => exact quietsSound_memoryFrame h he
    case memoryGrant span => exact (calm_memoryGrant h he).quietsSound
    case segmentGrant span => exact (calm_segmentGrant h he).quietsSound
    case abortAfterSegment p => exact (calm_abortAfterSegment h he).quietsSound
    case deferredRequestApply p => exact (calm_deferredRequestApply h he).quietsSound
    case tick => exact quietsSound_tick h he
    case lapse => exact quietsSound_lapse h he
    case supplyLoss =>
      cases he
      exact (calm_powerOn s).quietsSound
    all_goals cases hr

/-- Settles O58: every command keeps it, and a step is a command on a state with a shorter queue. -/
theorem quietStatesStaySound : Obligations.QuietStatesStaySound := by
  intro s t hs he
  unfold step at he
  split at he
  · cases he
    exact hs
  · next c rest _ => exact quietsSound_exec (s := { s with pending := rest }) hs he

end Sys2Proof.QuietTiming
end

section
/-! SUPPORT. What the copy engine, the watch table and the time base do to the ports: they post notices, and nothing
else. -/

namespace Sys2Proof.Posting

open Sys2Proof Sys2Proof.Machine Sys2Proof.Claims

/-- Each port of `t` is that of `s` with some notices posted to it, in their order. -/
def Posted (s t : State) : Prop := ∀ p, ∃ ns : List Notice, t.port p = ns.foldl Port.post (s.port p)

/-- Steps each of which posts a notice or does nothing. -/
theorem foldl_posts {α : Type} {g : Port → α → Port} (hg : ∀ x a, g x a = x ∨ ∃ n, g x a = x.post n) (l : List α)
    (x : Port) : ∃ ns : List Notice, l.foldl g x = ns.foldl Port.post x := by
  induction l generalizing x with
  | nil => exact ⟨[], rfl⟩
  | cons a l ih =>
    obtain ⟨ns, hns⟩ := ih (g x a)
    obtain ha | ⟨n, ha⟩ := hg x a
    · exact ⟨ns, by rw [List.foldl_cons, hns, ha]⟩
    · exact ⟨n :: ns, by rw [List.foldl_cons, hns, ha, List.foldl_cons]⟩

/-- A post leaves the request in flight. -/
theorem post_inFlight (q : Port) (n : Notice) : (q.post n).inFlight = q.inFlight := by
  have h : q.post n = (q.post n).withFrameSide q.slot q.inFlight q.frame q.shifted := post_frameSide q n _ _ _ _
  rw [h]
  rfl

section Operations

variable {r s t : State}

theorem posted_refl (s : State) : Posted s s := fun _ => ⟨[], rfl⟩

theorem Posted.trans (h : Posted r s) (g : Posted s t) : Posted r t := by
  intro p
  obtain ⟨ns, hs⟩ := h p
  obtain ⟨ms, ht⟩ := g p
  exact ⟨ns ++ ms, by rw [List.foldl_append, ← hs, ht]⟩

theorem Posted.inFlight (h : Posted s t) (p : PortId) : (t.port p).inFlight = (s.port p).inFlight := by
  obtain ⟨ns, ht⟩ := h p
  rw [ht]
  exact List.foldlRecOn (motive := fun x : Port => x.inFlight = (s.port p).inFlight) ns _ rfl
    (fun x hx n _ => (post_inFlight x n).trans hx)

theorem Posted.busy (h : Posted s t) {p : PortId} (hp : (s.port p).inFlight ≠ none) : (t.port p).inFlight ≠ none := by
  rwa [h.inFlight p]

theorem Posted.withGrant (h : Posted r s) (g : Option Grant) : Posted r { s with grant := g } := h

theorem Posted.withArray (h : Posted r s) (m : Memory) : Posted r { s with array := m } := h

theorem Posted.setChannel (h : Posted r s) (k : ChannelId) (e : Channel) : Posted r (s.setChannel k e) := h

theorem Posted.setPhase (h : Posted r s) (k : ChannelId) (m : Phase) : Posted r (s.setPhase k m) := h

theorem Posted.postTo (h : Posted r s) (set : BitVec 4) (n : Notice) : Posted r (s.postTo set n) := by
  refine h.trans (fun p => ?_)
  rw [port_postTo]
  split
  · exact ⟨[n], rfl⟩
  · exact ⟨[], rfl⟩

theorem Posted.postLate (h : Posted r s) : Posted r s.postLate := by
  cases hl : s.lateNotice with
  | none => rwa [postLate_none hl]
  | some l =>
    rw [postLate_some hl]
    exact Posted.postTo h l.ports l.notice

/-! ### The copy engine -/

theorem Posted.channelReports (h : Posted r s) (post : RunEndPost) (k : ChannelId) (e : Channel) (kinds : Byte) :
    Posted r (s.channelReports post k e kinds) := by
  cases post with
  | atOnce => exact (h.setChannel k _).postTo _ _
  | afterNext => exact (h.setChannel k _).postLate

theorem Posted.normalRunEnd (h : Posted r s) (post : RunEndPost) (k : ChannelId) :
    Posted r (s.normalRunEnd post k) := by
  unfold State.normalRunEnd
  dsimp only
  split
  · exact (h.channelReports post k _ _).setPhase k .idle
  · split
    · exact (h.channelReports post k _ _).setChannel k _
    · exact (h.setChannel k _).setChannel k _

theorem Posted.faultedRunEnd (h : Posted r s) (post : RunEndPost) (k : ChannelId) :
    Posted r (s.faultedRunEnd post k) := by
  unfold State.faultedRunEnd
  dsimp only
  split
  · exact (h.channelReports post k _ _).setPhase k .idle
  · exact (h.channelReports post k _ _).setPhase k .armed

theorem Posted.segmentCompletes (h : Posted r s) (k : ChannelId) (moved : Option Nat) (post : RunEndPost) :
    Posted r (s.segmentCompletes k moved post) := by
  cases moved with
  | none => exact h.faultedRunEnd post k
  | some size =>
    unfold State.segmentCompletes
    dsimp only
    split
    · exact h.setChannel k _
    · exact (h.setChannel k _).normalRunEnd post k

theorem Posted.abort (h : Posted r s) (k : ChannelId) : Posted r (s.abort k) := by
  unfold State.abort
  dsimp only
  split
  · exact (h.channelReports .atOnce k _ _).setPhase k .idle
  · exact h.setPhase k .idle

/-! ### Watches, ticks and lapses -/

theorem Posted.matchAll (h : Posted r s) (pr : Presentation) : Posted r (s.matchAll pr) := by
  refine h.trans (fun q => ?_)
  rw [(matchAll_spec s pr).2.2 q]
  refine foldl_posts (fun x w => ?_) watchIds (s.port q)
  unfold Port.afterMatch
  split
  · exact .inr ⟨_, rfl⟩
  · exact .inl rfl

theorem Posted.blockAll (h : Posted r s) (writer : Actor) (addrs : List Nat) (address size : Nat) :
    Posted r (s.blockAll writer addrs address size) := by
  refine h.trans (fun q => ?_)
  rw [(blockAll_spec s writer addrs address size).2.2 q]
  refine foldl_posts (fun x w => ?_) watchIds (s.port q)
  split
  · exact .inr ⟨_, rfl⟩
  · exact .inl rfl

theorem Posted.countTick (h : Posted r s) : Posted r s.countTick := h

theorem Posted.triggerOnce (h : Posted r s) (sent : BitVec 4) (k : Option ChannelId) :
    Posted r (s.triggerOnce sent k).1 := by
  refine h.trans (fun p => ⟨[], ?_⟩)
  rw [triggerOnce_port]
  rfl

theorem Posted.lapseOf (h : Posted r s) (w : WatchId) : Posted r (s.lapseOf w) := by
  have hw : Posted r (s.setWatch w ({ s.watch w with quiet := .lapsed, countdown := 0 } : Watch).hit) := h
  exact (hw.postTo (s.watch w).subscribers (quietNotice w (s.watch w).config.priority)).triggerOnce s.tickTriggered
    (s.watch w).config.trigger

theorem Posted.finishLapses (h : Posted r s) : Posted r s.finishLapses :=
  List.foldlRecOn (motive := Posted r) s.lapsesDue _ h (fun _ ha w _ => Posted.lapseOf ha w)

theorem Posted.nextLapse (h : Posted r s) : Posted r s.nextLapse := by
  unfold State.nextLapse
  split
  · exact h
  · exact h.lapseOf _

/-! ### Segments, and the refusal of a NULL anchor -/

theorem Posted.segmentAt (h : Posted r s) (k : ChannelId) : Posted r (s.segmentAt k) := by
  unfold State.segmentAt
  dsimp only
  split
  · exact h.withGrant _
  · split
    · exact (h.blockAll _ _ _ _).withGrant _
    · exact (((h.withArray _).matchAll _).matchAll _).withGrant _

theorem Posted.beginSegment (h : Posted r s) {k : ChannelId} (ht : beginSegment k s = .next t) : Posted r t := by
  unfold Machine.beginSegment at ht
  dsimp only at ht
  split at ht
  · cases ht
    exact Posted.segmentAt (s := { s with enginePointer := k + 1 }) h k
  · cases ht

theorem Posted.reportNullRef (h : Posted r s) (p : PortId) (m : MemoryRequest) : Posted r (s.reportNullRef p m) := by
  unfold State.reportNullRef
  split
  · split
    · split
      · exact h
      · exact h.postTo _ _
    · exact h
    · exact h
  · exact h
  · exact h

end Operations

end Sys2Proof.Posting
end

section
/-! SUPPORT. What a command can do to a port: one list of changes, which every statement about what a port keeps goes
through. -/

namespace Sys2Proof.PortChanges

open Sys2Proof Sys2Proof.Machine Sys2Proof.Claims Sys2Proof.RequestEffects Sys2Proof.Posting

/-! ### The changes -/

/-- One change of a port. A request comes into flight, and levels are set, only at a port that is not DOZING or has a
request in flight already (R147, R156); a DOZE completes as it is applied (R145, R161). -/
inductive Change (q : Port) : Port → Prop where
  | post (n : Notice) : Change q (q.post n)
  | aside (overrun busyRefused frameFault : Bool) (slot : Slot) (cursors : Vector (Option Binding) 4)
      (frame : Option OpenFrame) (shifted : Option ShiftedOut) :
      Change q { q with
        overrun := overrun
        busyRefused := busyRefused
        frameFault := frameFault
        slot := slot
        cursors := cursors
        frame := frame
        shifted := shifted }
  | complete (slot : Slot) : Change q { q with slot := slot, inFlight := none }
  | wait (r : InFlight) (h : q.mode ≠ .dozing ∨ q.inFlight ≠ none) : Change q { q with inFlight := some r }
  | mode (m : PortMode) (h : m ≠ .dozing) : Change q ({ q with mode := m } : Port).drive
  | doze (slot : Slot) (h : q.wakeable = false) :
      Change q { ({ q with mode := .dozing } : Port).drive with slot := slot, inFlight := none }
  | levels (threshold wake : Nat) (ht : 1 ≤ threshold ∧ threshold ≤ 8) (hw : 1 ≤ wake ∧ wake ≤ 7)
      (h : q.mode ≠ .dozing ∨ q.inFlight ≠ none) :
      Change q ({ q with threshold := threshold, wake := wake } : Port).drive
  | take : Change q ({ q with queue := withoutSelected q.queue } : Port).drive
  | enter (priority : Nat) (h : q.stack.length < Config.stackDepth) :
      Change q (({ q with queue := withoutSelected q.queue } : Port).enterService priority).drive
  | finish (threshold : Nat) (rest : List Nat) (h : q.stack = threshold :: rest) :
      Change q ({ q with stack := rest, threshold := threshold } : Port).drive
  | reset : Change q q.reset
  | powerOn (frame : Option OpenFrame) (shifted : Option ShiftedOut) :
      Change q { Port.default with frame := frame, shifted := shifted }

/-- Each port of `t` is that of `s` after some changes. -/
def Evolves (s t : State) : Prop := ∀ p, Relation.ReflTransGen Change (s.port p) (t.port p)

/-- What every change keeps at a port, is kept. -/
theorem Evolves.keeps {s t : State} (h : Evolves s t) {P : Port → Prop} (hP : ∀ q q', Change q q' → P q → P q')
    (p : PortId) (hs : P (s.port p)) : P (t.port p) := by
  have hc := h p
  generalize t.port p = q' at hc
  induction hc with
  | refl => exact hs
  | tail _ hqq ih => exact hP _ _ hqq ih

section Operations

variable {r s t : State}

theorem evolves_refl (s : State) : Evolves s s := fun _ => .refl

theorem Evolves.posted (h : Evolves r s) (g : Posted s t) : Evolves r t := by
  intro p
  obtain ⟨ns, ht⟩ := g p
  rw [ht]
  exact List.foldlRecOn (motive := Relation.ReflTransGen Change (r.port p)) ns _ (h p)
    (fun _ hx n _ => hx.tail (.post n))

theorem Evolves.withGrant (h : Evolves r s) (g : Option Grant) : Evolves r { s with grant := g } := h

theorem Evolves.withArray (h : Evolves r s) (m : Memory) : Evolves r { s with array := m } := h

theorem Evolves.withDeferredOrder (h : Evolves r s) (ds : List Deferred) : Evolves r { s with deferredOrder := ds } := h

theorem Evolves.modPort (h : Evolves r s) (p : PortId) {g : Port → Port} (hg : Change (s.port p) (g (s.port p))) :
    Evolves r (s.modPort p g) := by
  intro q
  rw [port_modPort]
  split
  · next hq => exact hq ▸ (h p).tail hg
  · exact h q

theorem Evolves.mapCursors (h : Evolves r s) (g : Option Binding → Option Binding) : Evolves r (s.mapCursors g) := by
  intro q
  rw [State.mapCursors, port_mapPorts]
  exact (h q).tail (.aside _ _ _ _ _ _ _)

theorem Evolves.postTo (h : Evolves r s) (set : BitVec 4) (n : Notice) : Evolves r (s.postTo set n) :=
  h.posted ((posted_refl s).postTo set n)

theorem Evolves.showPending (h : Evolves r s) (p : PortId) (tag : Byte) : Evolves r (s.showPending p tag) :=
  h.modPort p (.aside _ _ _ _ _ _ _)

theorem Evolves.complete (h : Evolves r s) (p : PortId) (code : ResultCode) (data : List Byte) :
    Evolves r (s.complete p code data) :=
  h.modPort p (.complete _)

theorem Evolves.setInFlight (h : Evolves r s) (p : PortId) (f : InFlight)
    (hp : (s.port p).mode ≠ .dozing ∨ (s.port p).inFlight ≠ none) : Evolves r (s.setInFlight p f) :=
  h.modPort p (.wait f hp)

theorem Evolves.setMode (h : Evolves r s) (p : PortId) {m : PortMode} (hm : m ≠ .dozing) : Evolves r (s.setMode p m) :=
  h.modPort p (.mode m hm)

theorem Evolves.completeAccess (h : Evolves r s) (post : RunEndPost) : Evolves r (s.completeAccess post) := by
  unfold State.completeAccess
  split
  · exact h
  · exact (h.withGrant none).complete _ _ _
  · exact (h.withGrant none).posted ((posted_refl _).segmentCompletes _ _ post)

/-! ### Accesses -/

/-- A port with a request in flight keeps it while its access is performed, and then holds the array (R7). -/
theorem Evolves.holdArray (h : Evolves r s) {p : PortId} (hp : (s.port p).inFlight ≠ none) (code : ResultCode)
    (data : List Byte) : Evolves r (s.holdArray p code data) :=
  h.setInFlight p .granted (.inr hp)

theorem Evolves.storeMotion (h : Evolves r s) (p : PortId) (motion : Option (CursorId × Nat)) :
    Evolves r (s.storeMotion p motion) := by
  cases motion with
  | none => exact h
  | some m => exact h.modPort p (.aside _ _ _ _ _ _ _)

theorem storeMotion_inFlight (s : State) (p : PortId) (motion : Option (CursorId × Nat)) :
    ((s.storeMotion p motion).port p).inFlight = (s.port p).inFlight := by
  cases motion with
  | none => rfl
  | some m =>
    rw [storeMotion_port]
    rfl

theorem Evolves.accessAt (h : Evolves r s) {p : PortId} (hp : (s.port p).inFlight ≠ none) (op : MemoryOp)
    (place : Place) : Evolves r (s.accessAt p op place) := by
  unfold State.accessAt
  split
  · exact h.holdArray hp _ _
  · split
    · have hb := (posted_refl s).blockAll (.port p) place.addrs (firstAddress place.addrs) op.size
      exact (h.posted hb).holdArray (hb.busy hp) _ _
    · have hm := (posted_refl (State.storeMotion { s with array := (op.perform s.array place.addrs).array } p
        place.motion)).matchAll ⟨.port p, place.addrs, firstAddress place.addrs, op.size,
          (op.perform s.array place.addrs).write⟩
      refine (((h.withArray _).storeMotion p place.motion).posted hm).holdArray (hm.busy ?_) _ _
      rw [storeMotion_inFlight]
      exact hp

theorem Evolves.beginAccess (h : Evolves r s) {p : PortId} (hp : (s.port p).inFlight ≠ none) {m : MemoryRequest}
    (ht : beginAccess p m s = .next t) : Evolves r t := by
  unfold Machine.beginAccess at ht
  split at ht
  · cases ht
    split
    · have hn := (posted_refl s).reportNullRef p m
      exact (h.posted hn).holdArray (hn.busy hp) _ _
    · exact h.holdArray hp _ _
  · split at ht
    · cases ht
      exact h.accessAt hp _ _
    · cases ht

end Operations

/-! ### Requests -/

/-- A check decides between two outcomes. -/
theorem evolves_ite {r : State} {P : Prop} [Decidable P] {x y : Applied} (hx : P → Evolves r x.state)
    (hy : ¬ P → Evolves r y.state) : Evolves r (if P then x else y).state := by
  split
  · next hP => exact hx hP
  · next hP => exact hy hP

section Requests

variable {r s : State} (h : Evolves r s) (p : PortId)

include h

theorem Evolves.portReset : Evolves r (s.portReset p) := Evolves.modPort (s := s) h p .reset

theorem Evolves.applyAttach : Evolves r (applyAttach p s).state :=
  evolves_ite (fun _ => Evolves.postTo (Evolves.setMode (s := s.leaveSets p) h p PortMode.noConfusion) _ _)
    (fun _ => ((h.portReset p).setMode p PortMode.noConfusion).postTo _ _)

theorem Evolves.applyDetach : Evolves r (applyDetach p s).state :=
  ((h.portReset p).setMode p PortMode.noConfusion).postTo _ _

/-- A DOZE, completed as it is applied (R145). -/
theorem Evolves.doze : Evolves r (s.applyAndComplete p .doze) := by
  by_cases hw : (s.port p).wakeable = true
  · have ha : applyRequest p .doze s = .answer s .dozeDeclined := if_pos hw
    unfold State.applyAndComplete
    rw [ha]
    exact h.complete p _ _
  · have ha : applyRequest p .doze s = .done (s.setMode p .dozing) := if_neg hw
    unfold State.applyAndComplete State.complete
    rw [ha]
    simp only [Applied.done, State.setMode, modPort_modPort]
    exact h.modPort p (.doze _ (Bool.eq_false_iff.mpr hw))

theorem Evolves.applySetLevels (hp : (s.port p).mode ≠ .dozing ∨ (s.port p).inFlight ≠ none) (threshold wake : Byte) :
    Evolves r (applySetLevels p threshold wake s).state :=
  evolves_ite (fun _ => h) (fun hn => by
    have ht : 1 ≤ threshold.toNat ∧ threshold.toNat ≤ 8 := by omega
    have hw : 1 ≤ wake.toNat ∧ wake.toNat ≤ 7 := by omega
    exact h.modPort p (.levels _ _ ht hw hp))

theorem Evolves.applyClearFlags (flags : Byte) : Evolves r (applyClearFlags p flags s).state :=
  evolves_ite (fun _ => h) (fun _ => h.modPort p (.aside _ _ _ _ _ _ _))

theorem Evolves.applyTakeNotice (mode : Byte) : Evolves r (applyTakeNotice p mode s).state := by
  refine evolves_ite (fun _ => h) (fun _ => ?_)
  split
  · exact h
  · refine evolves_ite (fun _ => h) (fun hd => h.modPort p (g := fun _ => _) ?_)
    split
    · next hm => exact .enter _ (Nat.lt_of_not_le (fun hl => hd ⟨hm, hl⟩))
    · exact .take

theorem Evolves.applyFinishService : Evolves r (applyFinishService p s).state := by
  unfold Machine.applyFinishService
  dsimp only
  split
  · exact h
  · next t rest hs => exact h.modPort p (g := fun _ => _) (.finish t rest hs)

theorem Evolves.applySetAnchor (b : AnchorBytes) : Evolves r (applySetAnchor p b s).state := by
  unfold Machine.applySetAnchor
  split
  · next a _ _ _ =>
    have ha (e : Anchor) : Evolves r (s.setAnchor a e) := h
    exact evolves_ite (fun _ => h) fun _ => evolves_ite (fun _ => h) fun _ =>
      evolves_ite (fun _ => (ha _).mapCursors _) fun _ => evolves_ite (fun _ => h) fun _ => (ha _).mapCursors _
  · exact h

theorem Evolves.applyBindCursor (cursor anchor : Byte) (offset : Half) :
    Evolves r (applyBindCursor p cursor anchor offset s).state := by
  unfold Machine.applyBindCursor
  split
  · split
    · exact h
    · exact evolves_ite (fun _ => h) (fun _ => h.modPort p (.aside _ _ _ _ _ _ _))
  · exact h

theorem Evolves.applyQueryCursor (cursor : Byte) : Evolves r (applyQueryCursor p cursor s).state := by
  unfold Machine.applyQueryCursor
  split <;> exact h

theorem Evolves.applySetWatch (b : WatchBytes) : Evolves r (applySetWatch p b s).state := by
  unfold Machine.applySetWatch
  split
  · exact h
  · exact evolves_ite (fun _ => h) (fun _ => h)

theorem Evolves.applySubscribe (watch : Byte) : Evolves r (applySubscribe p watch s).state := by
  unfold Machine.applySubscribe
  split
  · exact h
  · exact evolves_ite (fun _ => h) (fun _ => h)

theorem Evolves.applyUnsubscribe (watch : Byte) : Evolves r (applyUnsubscribe p watch s).state := by
  unfold Machine.applyUnsubscribe
  split
  · exact h
  · exact evolves_ite (fun _ => h) (fun _ => h)

theorem Evolves.applySetChannel (b : ChannelBytes) : Evolves r (applySetChannel p b s).state := by
  unfold Machine.applySetChannel
  split
  · exact h
  · exact evolves_ite (fun _ => h) (fun _ => evolves_ite (fun _ => h) (fun _ => h))

theorem Evolves.applyArmChannel (channel : Byte) : Evolves r (applyArmChannel p channel s).state := by
  unfold Machine.applyArmChannel
  split
  · exact h
  · exact evolves_ite (fun _ => h) (fun _ => evolves_ite (fun _ => h)
      (fun _ => evolves_ite (fun _ => h) (fun _ => h)))

theorem Evolves.applyStartChannel (channel : Byte) : Evolves r (applyStartChannel p channel s).state := by
  unfold Machine.applyStartChannel
  split
  · exact h
  · exact evolves_ite (fun _ => h) (fun _ => evolves_ite (fun _ => h) (fun _ => h))

theorem Evolves.applyAbortChannel (channel : Byte) : Evolves r (applyAbortChannel p channel s).state := by
  unfold Machine.applyAbortChannel
  split
  · exact h
  · exact evolves_ite (fun _ => h) (fun _ => h.posted ((posted_refl s).abort _))

theorem Evolves.setOwner (x : Entry) (o : Owner) : Evolves r (s.setOwner x o) := by
  cases x <;> exact h

theorem Evolves.releaseEntry (x : Entry) : Evolves r (s.releaseEntry x) := by
  cases x with
  | anchor a => exact Evolves.mapCursors (s := s.setAnchor a Anchor.default) h _
  | watch w => exact h
  | channel k => exact h

theorem Evolves.applyClaim (table index : Byte) : Evolves r (applyClaim p table index s).state := by
  unfold Machine.applyClaim
  split
  · exact h
  · exact evolves_ite (fun _ => h.setOwner _ _) (fun _ => h)

theorem Evolves.applyAdopt (table index : Byte) : Evolves r (applyAdopt p table index s).state := by
  unfold Machine.applyAdopt
  split
  · exact h
  · exact evolves_ite (fun _ => h.setOwner _ _) (fun _ => h)

theorem Evolves.applyRelease (table index : Byte) : Evolves r (applyRelease p table index s).state := by
  unfold Machine.applyRelease
  split
  · exact h
  · exact evolves_ite (fun _ => h) (fun _ => evolves_ite (fun _ => h) (fun _ => h.releaseEntry _))

theorem Evolves.applyQueryEntry (table index : Byte) : Evolves r (applyQueryEntry p table index s).state := by
  unfold Machine.applyQueryEntry
  split <;> exact h

/-- A request applied and completed (R161), of a port that is not DOZING or whose request was in flight. -/
theorem Evolves.applyAndComplete (hp : (s.port p).mode ≠ .dozing ∨ (s.port p).inFlight ≠ none) (x : Request) :
    Evolves r (s.applyAndComplete p x) := by
  cases x with
  | doze => exact h.doze p
  | attach => exact (h.applyAttach p).complete p _ _
  | detach => exact (h.applyDetach p).complete p _ _
  | setLevels threshold wake => exact (h.applySetLevels p hp threshold wake).complete p _ _
  | clearFlags flags => exact (h.applyClearFlags p flags).complete p _ _
  | takeNotice mode => exact (h.applyTakeNotice p mode).complete p _ _
  | finishService => exact (h.applyFinishService p).complete p _ _
  | setAnchor a => exact (h.applySetAnchor p a).complete p _ _
  | bindCursor cursor anchor offset => exact (h.applyBindCursor p cursor anchor offset).complete p _ _
  | queryCursor cursor => exact (h.applyQueryCursor p cursor).complete p _ _
  | setWatch w => exact (h.applySetWatch p w).complete p _ _
  | subscribe watch => exact (h.applySubscribe p watch).complete p _ _
  | unsubscribe watch => exact (h.applyUnsubscribe p watch).complete p _ _
  | setChannel c => exact (h.applySetChannel p c).complete p _ _
  | armChannel channel => exact (h.applyArmChannel p channel).complete p _ _
  | startChannel channel => exact (h.applyStartChannel p channel).complete p _ _
  | abortChannel channel => exact (h.applyAbortChannel p channel).complete p _ _
  | claim table index => exact (h.applyClaim p table index).complete p _ _
  | adopt table index => exact (h.applyAdopt p table index).complete p _ _
  | release table index => exact (h.applyRelease p table index).complete p _ _
  | queryEntry table index => exact (h.applyQueryEntry p table index).complete p _ _

end Requests

/-! ### What is due before a command -/

section Due

variable {r s : State}

theorem Evolves.applyDeferred (h : Evolves r s) (p : PortId) : Evolves r (s.applyDeferred p) := by
  unfold State.applyDeferred
  split
  · next hf => exact h.applyAndComplete p (.inr (hf ▸ Option.some_ne_none _)) _
  · next hf => exact h.applyAndComplete p (.inr (hf ▸ Option.some_ne_none _)) _
  · exact h

theorem Evolves.finishLapses (h : Evolves r s) : Evolves r s.finishLapses := h.posted (posted_refl s).finishLapses

theorem Evolves.postLate (h : Evolves r s) : Evolves r s.postLate := h.posted (posted_refl s).postLate

theorem Evolves.applyWaiting (h : Evolves r s) (d : Deferred) : Evolves r (s.applyWaiting d) := by
  cases d with
  | request p => exact h.applyDeferred p
  | tick => exact h.posted (posted_refl s).countTick.finishLapses

theorem Evolves.foldWaiting (h : Evolves r s) (ds : List Deferred) : Evolves r (ds.foldl State.applyWaiting s) :=
  List.foldlRecOn ds _ h (fun _ ht d _ => Evolves.applyWaiting ht d)

theorem Evolves.applyDeferredUpTo (h : Evolves r s) (p : PortId) : Evolves r (s.applyDeferredUpTo p) :=
  ((h.withDeferredOrder _).foldWaiting _).applyDeferred p

theorem Evolves.applyDeferredFirst (h : Evolves r s) (p : PortId) : Evolves r (s.applyDeferredFirst p) :=
  (h.withDeferredOrder _).applyDeferred p

theorem Evolves.afterCompletion (h : Evolves r s) : Evolves r s.afterCompletion := by
  unfold State.afterCompletion
  split
  · exact h
  · exact (h.withDeferredOrder []).foldWaiting s.deferredOrder

theorem Evolves.clearWay (h : Evolves r s) : Evolves r s.clearWay := h.finishLapses.afterCompletion

theorem Evolves.settle (h : Evolves r s) : Evolves r s.settle := h.finishLapses.postLate.afterCompletion

end Due

/-! ### Frames -/

section Frames

variable {r s t : State}

theorem Evolves.wakePort (h : Evolves r s) (p : PortId) : Evolves r (s.wakePort p) := by
  unfold State.wakePort
  split
  · exact h.setMode p PortMode.noConfusion
  · exact h

/-- A frame finds its port awake (R147). -/
theorem wakePort_mode (s : State) (p : PortId) : ((s.wakePort p).port p).mode ≠ .dozing := by
  unfold State.wakePort
  split
  · rw [State.setMode, port_modPort_same]
    exact PortMode.noConfusion
  · assumption

theorem Evolves.startFrame (h : Evolves r s) (p : PortId) : Evolves r (s.startFrame p) :=
  (h.modPort p (.aside _ _ _ _ _ _ _)).wakePort p

theorem Evolves.openFrame (h : Evolves r s) (p : PortId) : Evolves r (s.openFrame p) := by
  unfold State.openFrame
  split
  · exact h.wakePort p
  · exact h.startFrame p

theorem openFrame_mode (s : State) (p : PortId) : ((s.openFrame p).port p).mode ≠ .dozing := by
  unfold State.openFrame
  split
  · exact wakePort_mode s p
  · exact wakePort_mode _ p

theorem Evolves.closeFrame (h : Evolves r s) (p : PortId) (bits : Nat) : Evolves r (s.closeFrame p bits) :=
  h.modPort p (.aside _ _ _ _ _ _ _)

theorem Evolves.darkFrame (h : Evolves r s) (p : PortId) (f : Option OpenFrame) : Evolves r (s.darkFrame p f) :=
  h.modPort p (.aside _ _ _ _ _ _ _)

theorem Evolves.answerNow (h : Evolves r s) (p : PortId) (tag : Byte) (code : ResultCode) :
    Evolves r (s.answerNow p tag code) :=
  (h.showPending p tag).complete p code []

theorem Evolves.decide (h : Evolves r s) (p : PortId) (tag : Byte) (v : Verdict) {take : State → State}
    (ht : Evolves r (take s)) : Evolves r (s.decide p tag v take) := by
  cases v with
  | notReady => exact h
  | empty => exact h
  | lengthFault => exact h.modPort p (.aside _ _ _ _ _ _ _)
  | nop => exact h
  | busy => exact h.modPort p (.aside _ _ _ _ _ _ _)
  | unknownCode => exact h.answerNow p tag _
  | notAttached => exact h.answerNow p tag _
  | taken => exact ht

/-- A frame end, where what takes its request finds the port awake. -/
theorem Evolves.frameEnd (h : Evolves r s) {p : PortId} {bits : Nat} {tag : Byte} {fits : Bool} {kind : FrameKind}
    {take : State → State} (ht : ∀ u, Evolves r u → (u.port p).mode ≠ .dozing → Evolves r (take u))
    (he : frameEnd p bits tag fits kind take s = .next t) : Evolves r t := by
  unfold Machine.frameEnd at he
  cases he
  split
  · have hc : Evolves r ((s.settle.openFrame p).closeFrame p bits) := (h.settle.openFrame p).closeFrame p bits
    refine hc.decide p tag _ (ht _ hc ?_)
    rw [State.closeFrame, port_modPort_same]
    exact openFrame_mode s.settle p
  · exact h.darkFrame p none

theorem showPending_mode (s : State) (p : PortId) (tag : Byte) :
    ((s.showPending p tag).port p).mode = (s.port p).mode := by
  rw [State.showPending, port_modPort_same]

theorem Evolves.takeRequest (h : Evolves r s) {p : PortId} (hp : (s.port p).mode ≠ .dozing) (tag : Byte)
    (x : Request) : Evolves r (s.takeRequest p tag x) := by
  have hp' : ((s.showPending p tag).port p).mode ≠ .dozing := by rwa [showPending_mode]
  unfold State.takeRequest
  split
  · exact (h.showPending p tag).applyAndComplete p (.inl hp') x
  · exact (h.showPending p tag).setInFlight p _ (.inl hp')

theorem Evolves.takeMemory (h : Evolves r s) {p : PortId} (hp : (s.port p).mode ≠ .dozing) (tag : Byte)
    (x : Except ResultCode MemoryRequest) : Evolves r (s.takeMemory p tag x) := by
  cases x with
  | error code => exact h.answerNow p tag code
  | ok m => exact (h.showPending p tag).setInFlight p _ (.inl (by rwa [showPending_mode]))

theorem evolves_requestFrame {f : Frame} {code : Byte} {kind : FrameKind} {x : Request}
    (he : requestFrame f code kind x s = .next t) : Evolves s t :=
  (evolves_refl s).frameEnd (fun _ hu hp => hu.takeRequest hp f.tag x) he

theorem evolves_memoryFrame {f : Frame} {fits : Bool} {target : TargetBytes} {op : Option MemoryOp}
    (he : memoryFrame f fits target op s = .next t) : Evolves s t :=
  (evolves_refl s).frameEnd (fun _ hu hp => hu.takeMemory hp f.tag _) he

theorem evolves_untakenFrame {p : PortId} {bits : Nat} {tag : Byte} {fits : Bool} {kind : FrameKind}
    (he : frameEnd p bits tag fits kind id s = .next t) : Evolves s t :=
  (evolves_refl s).frameEnd (fun _ hu _ => hu) he

theorem evolves_frameStart {p : PortId} (he : execFrameStart p s = .next t) : Evolves s t := by
  unfold execFrameStart at he
  cases he
  split
  · exact (evolves_refl s).settle.startFrame p
  · exact (evolves_refl s).darkFrame p _

end Frames

/-! ### Grants, ticks and lapses as commands -/

section GrantCommands

variable {r s t : State}

/-- A MEMORY_GRANT serves a request that waits (R5, R6). -/
theorem memoryChoice_inFlight {p : PortId} {m : MemoryRequest} (hc : s.memoryChoice = some (p, m)) :
    (s.port p).inFlight = some (.waiting m) := by
  unfold State.memoryChoice at hc
  split at hc
  · cases hc
  · split at hc
    · split at hc
      · next hw =>
        cases hc
        exact hw
      · cases hc
    · cases hc

theorem Evolves.andThen {x : Host.Outcome State Fault Refusal} {g : State → State}
    (hx : ∀ u, x = .next u → Evolves r (g u)) (he : andThen x g = .next t) : Evolves r t := by
  cases x with
  | next u =>
    cases he
    exact hx u rfl
  | fault x => cases he
  | refused x => cases he

theorem Evolves.grantMemory (h : Evolves r s) {after : State → State} (ha : ∀ u, Evolves r u → Evolves r (after u))
    (he : grantMemory after s = .next t) : Evolves r t := by
  unfold Machine.grantMemory at he
  split at he
  · cases he
    exact h.postLate
  · next p m hc =>
    refine Evolves.andThen (fun u hu => ha _ (Evolves.postLate ?_)) he
    have hp : (s.port p).inFlight ≠ none := by
      rw [memoryChoice_inFlight hc]
      exact Option.some_ne_none _
    exact Evolves.beginAccess (s := s.advancePointer ⟨p.val, by omega⟩) h hp hu

theorem Evolves.grantSegment (h : Evolves r s) {after : State → State} (ha : ∀ u, Evolves r u → Evolves r (after u))
    (he : grantSegment after s = .next t) : Evolves r t := by
  unfold Machine.grantSegment at he
  split at he
  · cases he
    exact h.postLate
  · refine Evolves.andThen (fun u hu => ha _ (Evolves.postLate (h.posted ?_))) he
    exact Posted.beginSegment (s := s.advancePointer 4) (posted_refl s) hu

theorem evolves_memoryGrant {span : GrantSpan} (he : execMemoryGrant span s = .next t) : Evolves s t := by
  have h := evolves_refl s
  cases span with
  | whole => exact h.clearWay.grantMemory (fun _ hu => hu.completeAccess _) he
  | begins => exact h.clearWay.grantMemory (fun _ hu => hu) he
  | ends =>
    cases he
    unfold State.endMemory
    split
    · exact h.settle.completeAccess _
    · exact h.settle

theorem evolves_segmentGrant {span : SegmentSpan} (he : execSegmentGrant span s = .next t) : Evolves s t := by
  have h := evolves_refl s
  cases span with
  | whole post => exact h.clearWay.grantSegment (fun _ hu => hu.completeAccess _) he
  | begins => exact h.clearWay.grantSegment (fun _ hu => hu) he
  | ends post =>
    cases he
    unfold State.endSegment
    split
    · exact h.settle.completeAccess _
    · exact h.settle

theorem evolves_deferredRequestApply {p : PortId} (he : execDeferredRequestApply p s = .next t) : Evolves s t := by
  unfold execDeferredRequestApply at he
  split at he
  · cases he
    exact ((evolves_refl s).finishLapses.completeAccess _).applyDeferredUpTo p
  · cases he
    exact (evolves_refl s).settle

theorem evolves_abortAfterSegment {p : PortId} (he : execAbortAfterSegment p s = .next t) : Evolves s t := by
  unfold execAbortAfterSegment at he
  split at he
  · cases he
    exact ((evolves_refl s).finishLapses.completeAccess _).applyDeferredFirst p
  · cases he
    exact (evolves_refl s).settle

theorem evolves_tick (he : execTick s = .next t) : Evolves s t := by
  have h := (evolves_refl s).settle
  unfold execTick at he
  cases he
  split
  · exact h
  · split
    · exact h.withDeferredOrder _
    · exact h.posted (posted_refl _).countTick

theorem evolves_lapse (he : execLapse s = .next t) : Evolves s t := by
  unfold execLapse at he
  cases he
  split
  · exact (evolves_refl s).settle
  · exact (evolves_refl s).posted (posted_refl s).nextLapse

end GrantCommands

/-! ### Power and device reset -/

section Device

variable {s t : State}

theorem evolves_powerOn (s : State) : Evolves s s.powerOn := by
  intro p
  have hp : s.powerOn.port p = (s.port p).powerOn := tableMap_getElem Port.powerOn s.ports p.val p.isLt
  rw [hp]
  exact .single (.powerOn _ _)

theorem evolves_deviceReset (s : State) : Evolves s s.deviceReset := by
  intro p
  have hp : s.deviceReset.port p = (s.port p).deviceReset := tableMap_getElem Port.deviceReset s.ports p.val p.isLt
  rw [hp]
  exact .single (.powerOn _ _)

theorem evolves_fillEnd (he : execFillEnd s = .next t) : Evolves s t := by
  unfold execFillEnd at he
  cases he
  split <;> exact evolves_refl s

theorem evolves_nresetAssertion (he : execNresetAssertion s = .next t) : Evolves s t := by
  unfold execNresetAssertion at he
  cases he
  split
  · exact evolves_refl s
  · split
    · exact evolves_deviceReset s
    · exact evolves_refl s

theorem evolves_nresetRelease (he : execNresetRelease s = .next t) : Evolves s t := by
  unfold execNresetRelease at he
  cases he
  split
  · exact evolves_refl s
  · split
    · exact evolves_refl s
    · split <;> exact evolves_refl s

end Device

/-! ### Every command -/

theorem evolves_exec {s t : State} {i : Instr} (he : exec i s = .next t) : Evolves s t := by
  cases hr : requestOf i with
  | some x =>
    obtain ⟨f, code, r⟩ := x
    exact evolves_requestFrame ((exec_of_requestOf hr s).symm.trans he)
  | none =>
    cases i
    case powerOnReset =>
      cases he
      exact evolves_powerOn s
    case fillEnd => exact evolves_fillEnd he
    case nresetAssertion => exact evolves_nresetAssertion he
    case nresetRelease => exact evolves_nresetRelease he
    case frameStart p => exact evolves_frameStart he
    case emptyFrame p => exact evolves_untakenFrame he
    case nop p bits => exact evolves_untakenFrame he
    case unknownCode f code => exact evolves_untakenFrame he
    case read f target size => exact evolves_memoryFrame he
    case write f target size data => exact evolves_memoryFrame he
    case exchange f target width expected new => exact evolves_memoryFrame he
    case fetchAdd f target width addend => exact evolves_memoryFrame he
    case memoryGrant span => exact evolves_memoryGrant he
    case segmentGrant span => exact evolves_segmentGrant he
    case abortAfterSegment p => exact evolves_abortAfterSegment he
    case deferredRequestApply p => exact evolves_deferredRequestApply he
    case tick => exact evolves_tick he
    case lapse => exact evolves_lapse he
    case supplyLoss =>
      cases he
      exact evolves_powerOn s
    all_goals cases hr

/-- A step is a command on a state with a shorter queue, or nothing. -/
theorem evolves_step {s t : State} (he : step s = .next t) : Evolves s t := by
  unfold step at he
  split at he
  · cases he
    exact evolves_refl s
  · next c rest _ => exact evolves_exec (s := { s with pending := rest }) he

end Sys2Proof.PortChanges
end

section
/-! SUPPORT. The notice unit (chapter 6): what a post, a drive of nATTN and a change of a port do to queue, attention,
doze and levels, and the statements about them. -/

namespace Sys2Proof.NoticeUnit

open Sys2Proof Sys2Proof.Machine Sys2Proof.Claims Sys2Proof.PortChanges

/-! ### Arrivals -/

section Arrive

variable (q : Port) (i : Nat)

@[simp] theorem arrive_queue : (q.arrive i).queue = q.queue := by
  unfold Port.arrive
  split <;> rfl

@[simp] theorem arrive_threshold : (q.arrive i).threshold = q.threshold := by
  unfold Port.arrive
  split <;> rfl

@[simp] theorem arrive_wake : (q.arrive i).wake = q.wake := by
  unfold Port.arrive
  split <;> rfl

@[simp] theorem arrive_stack : (q.arrive i).stack = q.stack := by
  unfold Port.arrive
  split <;> rfl

@[simp] theorem arrive_inFlight : (q.arrive i).inFlight = q.inFlight := by
  unfold Port.arrive
  split <;> rfl

end Arrive

/-- A port that an arrival leaves DOZING was so, and the arrival is below its wake level (R146). -/
theorem arrive_dozing {q : Port} {i : Nat} (h : (q.arrive i).mode = .dozing) : q.mode = .dozing ∧ i < q.wake := by
  unfold Port.arrive at h
  split at h
  · cases h
  · next hn => exact ⟨h, Nat.lt_of_not_le (fun hw => hn ⟨h, hw⟩)⟩

/-! ### Posts -/

/-- The notice has a record of its source and kinds in the queue and is of a source that coalesces (R96). -/
def Absorbed (n : Notice) (queue : List Record) : Prop := n.source.coalesces = true ∧ ∃ r ∈ queue, r.alike n = true

/-- What holds of each of the ways a post ends, holds of the post (R96). -/
theorem post_cases {P : Port → Prop} (q : Port) (n : Notice) (hq : P q) (ho : P { q with overrun := true })
    (ha : P (Port.arrive { q with queue := absorbInto n q.queue } n.priority))
    (hp : ¬ Absorbed n q.queue → q.queue.length < Config.queueCapacity → P ((q.append n).arrive n.priority)) :
    P (q.post n) := by
  unfold Port.post
  split_ifs with hd hc hl
  · exact hq
  · exact ha
  · refine hp (fun h => hc ?_) hl
    simpa [Absorbed] using h
  · exact ho

/-- A record of a queue that has absorbed a notice was there, or shows the notice (R97). -/
theorem mem_absorbInto {n : Notice} {l : List Record} {r : Record} (h : r ∈ absorbInto n l) : r ∈ l ∨ r.notice = n := by
  induction l with
  | nil => exact .inl h
  | cons x l ih =>
    unfold absorbInto at h
    split at h
    · rcases List.mem_cons.mp h with rfl | h
      · exact .inr rfl
      · exact .inl (List.mem_cons_of_mem _ h)
    · rcases List.mem_cons.mp h with rfl | h
      · exact .inl List.mem_cons_self
      · exact (ih h).imp_left (List.mem_cons_of_mem _)

/-! ### Folded queues (R97) -/

/-- What decides whether two records fold. -/
def key (r : Record) : Source × Byte := (r.notice.source, r.notice.kinds)

theorem folds_iff (a b : Record) : a.folds b ↔ a.notice.source.coalesces = true ∧ key b = key a := by
  simp [Record.folds, key, alike_iff]

/-- A queue is folded by its keys alone. -/
theorem folded_iff (q : Port) :
    q.folded ↔ (q.queue.map key).Pairwise (fun a b => ¬ (a.1.coalesces = true ∧ b = a)) := by
  rw [List.pairwise_map]
  exact List.pairwise_iff_forall_sublist.trans
    ((forall_congr' fun a => forall_congr' fun b => by rw [folds_iff]; rfl).trans List.pairwise_iff_forall_sublist.symm)

/-- A notice is absorbed by a record of its own key. -/
theorem map_key_absorbInto (n : Notice) (l : List Record) : (absorbInto n l).map key = l.map key := by
  induction l with
  | nil => rfl
  | cons r l ih =>
    unfold absorbInto
    split
    · next hr =>
      obtain ⟨hs, hk⟩ := (alike_iff r n).mp hr
      simp [key, Record.absorb, hs, hk]
    · rw [List.map_cons, List.map_cons, ih]

theorem folded_append {q : Port} {n : Notice} (h : q.folded) (hn : ¬ Absorbed n q.queue) : (q.append n).folded := by
  refine List.pairwise_append.mpr ⟨h, List.pairwise_singleton _ _, fun a ha b hb hf => hn ?_⟩
  cases List.mem_singleton.mp hb
  obtain ⟨hc, hk⟩ := (folds_iff a _).mp hf
  obtain ⟨hs, hk⟩ := Prod.mk.inj hk
  exact ⟨by rw [hs]; exact hc, a, ha, (alike_iff a n).mpr ⟨hs.symm, hk.symm⟩⟩

theorem post_folded {q : Port} (n : Notice) (h : q.folded) : (q.post n).folded := by
  refine post_cases q n h h ?_ (fun hn _ => ?_)
  · rw [folded_iff, arrive_queue, map_key_absorbInto]
    exact (folded_iff q).mp h
  · rw [Port.folded, arrive_queue]
    exact folded_append h hn

/-! ### What every change of a port keeps -/

/-- The queue of a port within its capacity and folded (R94, R97). -/
def QueueSound (q : Port) : Prop := q.queue.length ≤ Config.queueCapacity ∧ q.folded

theorem QueueSound.withoutSelected {q q' : Port} (h : QueueSound q) (hq : q'.queue = withoutSelected q.queue) :
    QueueSound q' := by
  obtain ⟨hl, hf⟩ := h
  have hs : (Machine.withoutSelected q.queue).Sublist q.queue := List.eraseP_sublist
  exact ⟨hq ▸ hs.length_le.trans hl, by rw [Port.folded, hq]; exact hf.sublist hs⟩

theorem queueSound_nil {q : Port} (hq : q.queue = []) : QueueSound q := by
  rw [QueueSound, Port.folded, hq]
  exact ⟨Nat.zero_le _, .nil⟩

theorem queueSound_of_change {q q' : Port} (hc : Change q q') (h : QueueSound q) : QueueSound q' := by
  cases hc with
  | post n => exact ⟨post_length q n h.1, post_folded n h.2⟩
  | aside => exact h
  | complete slot => exact h
  | wait r hr => exact h
  | mode m hm => exact h
  | doze slot hw => exact h
  | levels threshold wake ht hw hp => exact h
  | take => exact h.withoutSelected rfl
  | enter priority hs => exact h.withoutSelected rfl
  | finish threshold rest hs => exact h
  | reset => exact queueSound_nil rfl
  | powerOn frame shifted => exact queueSound_nil rfl

/-- nATTN driven is exact (R108). -/
theorem drive_attentionExact (q : Port) : q.drive.attentionExact := by
  simp [Port.attentionExact, Port.drive, Port.attentionCondition]

theorem arrive_attentionExact (q : Port) (i : Nat) : (q.arrive i).attentionExact := drive_attentionExact _

theorem attentionExact_of_change {q q' : Port} (hc : Change q q') (h : q.attentionExact) : q'.attentionExact := by
  cases hc with
  | post n => exact post_cases q n h h (arrive_attentionExact _ _) (fun _ _ => arrive_attentionExact _ _)
  | aside => exact h
  | complete slot => exact h
  | wait r hr => exact h
  | mode m hm => exact drive_attentionExact _
  | doze slot hw => exact drive_attentionExact ({ q with mode := .dozing } : Port)
  | levels threshold wake ht hw hp => exact drive_attentionExact _
  | take => exact drive_attentionExact _
  | enter priority hs => exact drive_attentionExact _
  | finish threshold rest hs => exact drive_attentionExact _
  | reset => exact drive_attentionExact _
  | powerOn frame shifted => exact ⟨fun h => Bool.noConfusion h, fun h => PortMode.noConfusion h.1⟩

theorem post_dozeSound {q : Port} (n : Notice) (h : q.dozeSound) : (q.post n).dozeSound := by
  refine post_cases q n h h (fun hm => ?_) (fun _ _ hm => ?_)
  · obtain ⟨hd, hi⟩ := arrive_dozing hm
    obtain ⟨hq, hf⟩ := h hd
    simp only [arrive_queue, arrive_wake, arrive_inFlight]
    exact ⟨fun r hr => (mem_absorbInto hr).elim (hq r) (fun e => e ▸ hi), hf⟩
  · obtain ⟨hd, hi⟩ := arrive_dozing hm
    obtain ⟨hq, hf⟩ := h hd
    simp only [arrive_queue, arrive_wake, arrive_inFlight]
    refine ⟨fun r hr => ?_, hf⟩
    rcases List.mem_append.mp hr with hr | hr
    · exact hq r hr
    · cases List.mem_singleton.mp hr
      exact hi

/-- Where a DOZING port keeps its wake level and its request, and gets no record, it stays sound. -/
theorem dozeSound_of_queue {q q' : Port} (h : q.dozeSound) (hm : q'.mode = q.mode) (hw : q'.wake = q.wake)
    (hf : q'.inFlight = q.inFlight) (hq : ∀ r ∈ q'.queue, r ∈ q.queue) : q'.dozeSound := by
  intro hd
  obtain ⟨hr, hi⟩ := h (hm ▸ hd)
  exact ⟨fun r hr' => hw ▸ hr r (hq r hr'), hf.trans hi⟩

/-- A DOZING port is not one whose requests are taken or applied. -/
theorem not_dozing {q : Port} (h : q.dozeSound) (hp : q.mode ≠ .dozing ∨ q.inFlight ≠ none) : q.mode ≠ .dozing :=
  fun hm => hp.elim (fun hn => hn hm) (fun hn => hn (h hm).2)

theorem dozeSound_of_change {q q' : Port} (hc : Change q q') (h : q.dozeSound) : q'.dozeSound := by
  cases hc with
  | post n => exact post_dozeSound n h
  | aside => exact h
  | complete slot => exact fun hm => ⟨(h hm).1, rfl⟩
  | wait r hr => exact fun hm => (not_dozing (q := q) h hr hm).elim
  | mode m hm => exact fun hd => absurd hd hm
  | doze slot hw =>
    have hb : ∀ r ∈ q.queue, r.notice.priority < q.wake := by simpa [Port.wakeable] using hw
    exact fun _ => ⟨hb, rfl⟩
  | levels threshold wake ht hw hp => exact fun hm => (not_dozing (q := q) h hp hm).elim
  | take => exact dozeSound_of_queue h rfl rfl rfl (fun r hr => List.mem_of_mem_eraseP hr)
  | enter priority hs => exact dozeSound_of_queue h rfl rfl rfl (fun r hr => List.mem_of_mem_eraseP hr)
  | finish threshold rest hs => exact dozeSound_of_queue h rfl rfl rfl (fun r hr => hr)
  | reset => exact fun hm => ⟨fun r hr => absurd hr List.not_mem_nil, (h hm).2⟩
  | powerOn frame shifted => exact fun hm => PortMode.noConfusion hm

theorem post_levelsSound {q : Port} (n : Notice) (h : q.levelsSound) : (q.post n).levelsSound := by
  refine post_cases q n h h ?_ (fun _ _ => ?_)
  · simp only [Port.levelsSound, arrive_threshold, arrive_wake, arrive_stack]
    exact h
  · simp only [Port.levelsSound, arrive_threshold, arrive_wake, arrive_stack]
    exact h

/-- First levels and an empty stack (R143). -/
theorem levelsSound_first {q : Port} (ht : q.threshold = 1) (hw : q.wake = 1) (hs : q.stack = []) : q.levelsSound := by
  rw [Port.levelsSound, ht, hw, hs]
  exact ⟨le_rfl, by decide, le_rfl, by decide, Nat.zero_le _, fun t h => absurd h List.not_mem_nil⟩

theorem levelsSound_of_change {q q' : Port} (hc : Change q q') (h : q.levelsSound) : q'.levelsSound := by
  cases hc with
  | post n => exact post_levelsSound n h
  | aside => exact h
  | complete slot => exact h
  | wait r hr => exact h
  | mode m hm => exact h
  | doze slot hw => exact h
  | levels threshold wake ht hw hp =>
    obtain ⟨-, -, -, -, hl, hs⟩ := h
    exact ⟨ht.1, ht.2, hw.1, hw.2, hl, hs⟩
  | take => exact h
  | enter priority hroom =>
    obtain ⟨ht, ht', hw, hw', hl, hs⟩ := h
    exact ⟨le_min (Nat.succ_pos _) (by decide), min_le_right _ _, hw, hw', hroom,
      List.forall_mem_cons.mpr ⟨⟨ht, ht'⟩, hs⟩⟩
  | finish threshold rest hr =>
    obtain ⟨-, -, hw, hw', hl, hs⟩ := h
    rw [hr] at hl hs
    obtain ⟨⟨ht, ht'⟩, hs⟩ := List.forall_mem_cons.mp hs
    exact ⟨ht, ht', hw, hw', (Nat.le_succ _).trans hl, hs⟩
  | reset => exact levelsSound_first rfl rfl rfl
  | powerOn frame shifted => exact levelsSound_first rfl rfl rfl

/-- Settles O54: every change of a port keeps its queue within bounds and folded. -/
theorem queuesStayBoundedAndFolded : Obligations.QueuesStayBoundedAndFolded := by
  intro s t hb hf he
  have hq (p : PortId) : QueueSound (t.port p) :=
    (evolves_step he).keeps (fun _ _ => queueSound_of_change) p ⟨hb p, hf p⟩
  exact ⟨fun p => (hq p).1, fun p => (hq p).2⟩

/-- Settles O55: every change of a port leaves nATTN as it was or drives it anew. -/
theorem attentionStaysExact : Obligations.AttentionStaysExact :=
  fun _ _ hs he p => (evolves_step he).keeps (fun _ _ => attentionExact_of_change) p (hs p)

/-- Settles O56: every change of a port keeps its doze, its levels and its stack sound. -/
theorem dozingAndLevelsStaySound : Obligations.DozingAndLevelsStaySound :=
  ⟨fun _ _ hs he p => (evolves_step he).keeps (fun _ _ => dozeSound_of_change) p (hs p),
    fun _ _ hs he p => (evolves_step he).keeps (fun _ _ => levelsSound_of_change) p (hs p)⟩

end Sys2Proof.NoticeUnit
end

section
/-! SUPPORT. Posting and taking notices (6.3 to 6.5): each way a post ends, the record TAKE_NOTICE selects, TAKE_NOTICE
and FINISH_SERVICE at their frame ends, and the bytes of a record. -/

namespace Sys2Proof.NoticeRequests

open Sys2Proof Sys2Proof.Machine Sys2Proof.Claims Sys2Proof.Presence

/-! ### Posting (R95 to R100) -/

theorem coalesces_iff (n : Notice) :
    n.source.coalesces = true ↔ (∃ w, n.source = .watch w) ∨ ∃ a, n.source = .anchor a := by
  cases n.source <;> simp [Source.coalesces]

/-- A record that is of another source or of other kinds absorbs no such notice (R96). -/
theorem not_alike {r : Record} {n : Notice} (h : r.notice.source ≠ n.source ∨ r.notice.kinds ≠ n.kinds) :
    r.alike n = false := by
  refine Bool.eq_false_iff.mpr (fun ha => ?_)
  obtain ⟨hs, hk⟩ := (alike_iff r n).mp ha
  exact h.elim (fun h => h hs) (fun h => h hk)

/-- A post that no record absorbs (R96, R98). -/
theorem not_absorbed {n : Notice} {queue : List Record}
    (h : (∃ k, n.source = .channel k) ∨ (∃ p, n.source = .presence p) ∨
      ∀ x ∈ queue, x.notice.source ≠ n.source ∨ x.notice.kinds ≠ n.kinds) :
    n.source.coalesces = false ∨ ∀ r ∈ queue, r.alike n = false := by
  rcases h with ⟨k, hk⟩ | ⟨p, hp⟩ | h
  · exact .inl (by rw [hk]; rfl)
  · exact .inl (by rw [hp]; rfl)
  · exact .inr (fun r hr => not_alike (h r hr))

/-- The counter skips the seq of the newest record (R95). -/
theorem seqForAppend_eq (q : Port) :
    q.seqForAppend =
      if q.queue.getLast?.map Record.seq = some q.nextSeq then (q.nextSeq + 1) % 65536 else q.nextSeq := by
  unfold Port.seqForAppend
  cases q.queue.getLast? with
  | none => rfl
  | some r => simp [Config.seqModulus]

/-- Settles O16: each way a post ends is an equation of `Port.post`, and an arrival then sets port state and nATTN. -/
theorem postEndsInOneOfFourWays : Obligations.PostEndsInOneOfFourWays := by
  refine fun q n => ⟨post_detached q n, fun older newer r hm hq hs hsrc hk ho => ?absorbed,
    fun hm hn => ⟨fun hl => ⟨q.seqForAppend, seqForAppend_eq q, ?appended⟩, fun hl => ?dropped⟩⟩
  case absorbed =>
    have hr : r.alike n = true := (alike_iff r n).mpr ⟨hsrc, hk⟩
    have hmem : r ∈ q.queue := hq ▸ List.mem_append_right older List.mem_cons_self
    rw [post_absorbs q n hm ((coalesces_iff n).mpr hs) ⟨r, hmem, hr⟩, hq,
      absorbInto_split n older newer r hr (fun x hx => not_alike (ho x hx))]
    exact arrive_eq _ _ hm
  case appended =>
    rw [post_appends q n hm (not_absorbed hn) hl]
    exact arrive_eq _ _ hm
  case dropped => exact post_drops q n hm (not_absorbed hn) hl

/-! ### The record that TAKE_NOTICE selects (R102) -/

/-- Every queue that is not empty has an oldest record of the highest priority present. -/
theorem exists_most_urgent {queue : List Record} (h : queue ≠ []) :
    ∃ older r newer, queue = older ++ r :: newer ∧ (∀ x ∈ older, x.notice.priority < r.notice.priority) ∧
      ∀ x ∈ newer, x.notice.priority ≤ r.notice.priority := by
  induction queue with
  | nil => exact absurd rfl h
  | cons x l ih =>
    by_cases hl : l = []
    · exact ⟨[], x, [], by rw [hl]; rfl, fun y hy => absurd hy List.not_mem_nil, fun y hy => absurd hy List.not_mem_nil⟩
    · obtain ⟨older, r, newer, rfl, ho, hn⟩ := ih hl
      by_cases hr : r.notice.priority ≤ x.notice.priority
      · refine ⟨[], x, older ++ r :: newer, rfl, fun y hy => absurd hy List.not_mem_nil, fun y hy => ?_⟩
        rcases List.mem_append.mp hy with hy | hy
        · exact ((ho y hy).trans_le hr).le
        · rcases List.mem_cons.mp hy with rfl | hy
          · exact hr
          · exact (hn y hy).trans hr
      · exact ⟨x :: older, r, newer, rfl, List.forall_mem_cons.mpr ⟨Nat.lt_of_not_le hr, ho⟩, hn⟩

theorem selected_of_ne_nil {queue : List Record} (h : queue ≠ []) : ∃ r, selected queue = some r := by
  obtain ⟨older, r, newer, rfl, ho, hn⟩ := exists_most_urgent h
  exact ⟨r, selected_split older newer r ho hn⟩

/-! ### TAKE_NOTICE and FINISH_SERVICE, an equation for each outcome (R102 to R106) -/

/-- nATTN of an ATTACHED port (R108). -/
theorem drive_attached {q : Port} (h : q.mode = .attached) :
    q.drive = { q with attention := reaches q.queue q.threshold } := by
  simp [Port.drive, Port.attentionCondition, h, reaches]

section Outcomes

variable {p : PortId} {s : State}

/-- The port once the record `r` is taken from between `older` and `newer`, without ENTER_SERVICE (R103). -/
def taking (older newer : List Record) (q : Port) : Port :=
  { q with queue := older ++ newer, attention := reaches (older ++ newer) q.threshold }

/-- The same with ENTER_SERVICE, for a record of this priority (R104). -/
def entering (older newer : List Record) (priority : Nat) (q : Port) : Port :=
  { q with
    queue := older ++ newer
    stack := q.threshold :: q.stack
    threshold := min (priority + 1) 8
    attention := reaches (older ++ newer) (min (priority + 1) 8) }

/-- The port once the threshold `t` is popped off its stack (R105). -/
def finishing (t : Nat) (rest : List Nat) (q : Port) : Port :=
  { q with stack := rest, threshold := t, attention := reaches q.queue t }

theorem applyTakeNotice_badParameter {mode : Byte} (h : 2 ≤ mode.toNat) :
    applyTakeNotice p mode s = .answer s .badParameter := by
  refine if_pos ⟨?_, ?_⟩
  · rintro rfl
    exact absurd h (by decide)
  · rintro rfl
    exact absurd h (by decide)

theorem mode_cases {mode : Byte} (h : mode.toNat < 2) : mode = 0 ∨ mode = 1 := by
  bv_omega

theorem applyTakeNotice_empty {mode : Byte} (h : mode.toNat < 2) (hq : (s.port p).queue = []) :
    applyTakeNotice p mode s = .answer s .empty := by
  have hs : selected (s.port p).queue = none := by rw [hq]; rfl
  unfold applyTakeNotice
  rcases mode_cases h with rfl | rfl <;> simp [hs]

theorem applyTakeNotice_serviceFull (hq : (s.port p).queue ≠ []) (hf : 4 ≤ (s.port p).stack.length) :
    applyTakeNotice p 1 s = .answer s .serviceFull := by
  obtain ⟨r, hr⟩ := selected_of_ne_nil hq
  simp [applyTakeNotice, hr, Config.stackDepth, hf]

variable {older newer : List Record} {r : Record} (hm : (s.port p).mode = .attached)
  (hq : (s.port p).queue = older ++ r :: newer) (ho : ∀ x ∈ older, x.notice.priority < r.notice.priority)
  (hn : ∀ x ∈ newer, x.notice.priority ≤ r.notice.priority)

include hm hq ho hn

theorem applyTakeNotice_takes :
    applyTakeNotice p 0 s = .report (s.modPort p (taking older newer)) r.bytes := by
  have hs : selected (s.port p).queue = some r := by rw [hq, selected_split older newer r ho hn]
  have hw : withoutSelected (s.port p).queue = older ++ newer := by rw [hq, withoutSelected_split older newer r ho hn]
  have hd : Port.drive { s.port p with queue := older ++ newer } = taking older newer (s.port p) := drive_attached hm
  simp [applyTakeNotice, hs, hw, hd, State.modPort]

theorem applyTakeNotice_enters (hl : (s.port p).stack.length < 4) :
    applyTakeNotice p 1 s = .report (s.modPort p (entering older newer r.notice.priority)) r.bytes := by
  have hs : selected (s.port p).queue = some r := by rw [hq, selected_split older newer r ho hn]
  have hw : withoutSelected (s.port p).queue = older ++ newer := by rw [hq, withoutSelected_split older newer r ho hn]
  have hd : (({ s.port p with queue := older ++ newer } : Port).enterService r.notice.priority).drive =
      entering older newer r.notice.priority (s.port p) := drive_attached hm
  simp [applyTakeNotice, hs, hw, hd, Config.stackDepth, Nat.not_le.mpr hl, State.modPort]

omit hq ho hn

theorem applyFinishService_pops {t : Nat} {rest : List Nat} (hs : (s.port p).stack = t :: rest) :
    applyFinishService p s = .done (s.modPort p (finishing t rest)) := by
  have hd : Port.drive { s.port p with stack := rest, threshold := t } = finishing t rest (s.port p) :=
    drive_attached hm
  simp [applyFinishService, hs, hd, State.modPort]

omit hm

theorem applyFinishService_serviceEmpty (hs : (s.port p).stack = []) :
    applyFinishService p s = .answer s .serviceEmpty := by
  simp [applyFinishService, hs]

end Outcomes

/-! ### At their frame ends -/

section AtFrameEnd

variable {s : State} {f : Frame}

/-- A request that changes its own port alone, at its frame end. -/
theorem requestFrame_changes_port {code : Byte} {kind : FrameKind} {r : Request} {n : Nat} {g : Port → Port}
    {c : ResultCode} {d : List Byte} (h : s.serves f.port) (hb : f.bits = 8 * n) (he : expectedLength code 0 = some n)
    (hn : kind ≠ .nop) (hu : kind ≠ .unknown) (hg : SparesFrameSide g)
    (hx : applyRequest f.port r (s.taken f) = ⟨(s.taken f).modPort f.port g, c, d⟩) :
    requestFrame f code kind r s = .next ((s.modPort f.port g).answered f c d) := by
  have hq : (s.taken f).port f.port = (s.port f.port).withFrameSide ⟨f.tag, .pending, []⟩
      (s.port f.port).inFlight none ((s.port f.port).frame.map (fun o => ⟨o.header, f.bits⟩)) := taken_port s f
  rw [requestFrame_answers h hb he hn hu hx]
  refine congrArg Host.Outcome.next (complete_modPort_taken s f g g c d ?_ ?_)
  · rw [hg.tag, taken_port]
  · rw [hq, hg.frameSide, hg.frame]
    rfl

theorem taking_spares (older newer : List Record) : SparesFrameSide (taking older newer) :=
  ⟨fun _ => rfl, fun _ _ _ _ _ => rfl, fun _ => rfl⟩

theorem entering_spares (older newer : List Record) (priority : Nat) :
    SparesFrameSide (entering older newer priority) :=
  ⟨fun _ => rfl, fun _ _ _ _ _ => rfl, fun _ => rfl⟩

theorem finishing_spares (t : Nat) (rest : List Nat) : SparesFrameSide (finishing t rest) :=
  ⟨fun _ => rfl, fun _ _ _ _ _ => rfl, fun _ => rfl⟩

/-- A port whose request is served is ATTACHED (R139). -/
theorem mode_of_serves {p : PortId} (h : s.serves p) : (s.port p).mode = .attached := by
  obtain ⟨⟨-, hm, -⟩, -⟩ := h
  exact hm

/-- The notice side of a port stands while its request is applied. -/
theorem taken_mode (s : State) (f : Frame) : ((s.taken f).port f.port).mode = (s.port f.port).mode := by
  rw [taken_port]

theorem taken_queue (s : State) (f : Frame) : ((s.taken f).port f.port).queue = (s.port f.port).queue := by
  rw [taken_port]

theorem taken_stack (s : State) (f : Frame) : ((s.taken f).port f.port).stack = (s.port f.port).stack := by
  rw [taken_port]

end AtFrameEnd

/-- Settles O14: the outcomes of `applyTakeNotice`, taken to their frame ends. -/
theorem takeNoticeRemovesMostUrgent : Obligations.TakeNoticeRemovesMostUrgent := by
  refine ⟨fun f s older newer r hs hb hq ho hn => ?_, fun f mode s hs hb => ⟨fun h => ?badParameter,
    fun h hq => ?empty, fun h hq hf => ?serviceFull⟩⟩
  · have hm : ((s.taken f).port f.port).mode = .attached := (taken_mode s f).trans (mode_of_serves hs)
    have hq' := (taken_queue s f).trans hq
    refine ⟨?takes, fun hl => ?enters⟩
    case takes =>
      exact requestFrame_changes_port hs hb rfl (by decide) (by decide) (taking_spares older newer)
        (applyTakeNotice_takes hm hq' ho hn)
    case enters =>
      exact requestFrame_changes_port hs hb rfl (by decide) (by decide) (entering_spares older newer _)
        (applyTakeNotice_enters hm hq' ho hn (by rwa [taken_stack]))
  case badParameter =>
    exact requestFrame_no_effect hs hb rfl (by decide) (by decide) (applyTakeNotice_badParameter h)
  case empty =>
    exact requestFrame_no_effect hs hb rfl (by decide) (by decide)
      (applyTakeNotice_empty h ((taken_queue s f).trans hq))
  case serviceFull =>
    obtain rfl : mode = 1 := BitVec.eq_of_toNat_eq h
    exact requestFrame_no_effect hs hb rfl (by decide) (by decide)
      (applyTakeNotice_serviceFull (by rwa [taken_queue]) (by rwa [taken_stack]))

/-- Settles O15: the outcomes of `applyFinishService`, taken to their frame ends. -/
theorem finishServiceRestoresThreshold : Obligations.FinishServiceRestoresThreshold := by
  refine fun f s hs hb => ⟨fun t rest ht => ?pops, fun he => ?serviceEmpty⟩
  case pops =>
    exact requestFrame_changes_port hs hb rfl (by decide) (by decide) (finishing_spares t rest)
      (applyFinishService_pops ((taken_mode s f).trans (mode_of_serves hs)) ((taken_stack s f).trans ht))
  case serviceEmpty =>
    exact requestFrame_no_effect hs hb rfl (by decide) (by decide)
      (applyFinishService_serviceEmpty ((taken_stack s f).trans he))

/-! ### Layouts (R92, R103, R157, Tables 9-2, 9-3 and 9-5) -/

theorem frames_decode :
    decodeFrame 1 72 [0x11, 7, 0, 0xA0, 0x0F, 0, 2, 0xAA, 0xBB] = .write ⟨1, 72, 7⟩ ⟨0, 0xA0, 0x0F, 0⟩ 2 [0xAA, 0xBB] ∧
    decodeFrame 2 120 [0x12, 9, 2, 1, 1, 0, 4, 1, 2, 3, 4, 5, 6, 7, 8] =
      .exchange ⟨2, 120, 9⟩ ⟨2, 1, 1, 0⟩ 4 0x04030201 0x08070605 ∧
    decodeFrame 0 72 [0x20, 3, 5, 0x00, 0x20, 0x28, 0x00, 1, 1] = .setAnchor ⟨0, 72, 3⟩ ⟨5, 8192, 40, 1, 1⟩ ∧
    decodeFrame 3 104 [0x40, 1, 2, 0xE8, 0x03, 0xD0, 0x07, 0x28, 0, 1, 2, 3, 1] =
      .setChannel ⟨3, 104, 1⟩ ⟨2, 1000, 2000, 40, 1, 2, 3, 1⟩ ∧
    decodeFrame 0 32 [0x50, 4, 2, 1] = .claim ⟨0, 32, 4⟩ 2 1 ∧
    decodeFrame 1 48 [0x00, 1, 2, 3, 4, 5] = .nop 1 48 ∧
    decodeFrame 1 24 [0x99, 5, 6] = .unknownCode ⟨1, 24, 5⟩ 0x99 := by decide

/-- The fields that every record shows, before its optional ones (Table 9-5). -/
theorem record_bytes (seq repeats : Nat) (n : Notice) :
    Record.bytes ⟨seq, repeats, n⟩ =
      leBytes 2 seq ++ [n.source.byte, n.kinds, BitVec.ofNat 8 n.priority, BitVec.ofNat 8 repeats, n.contents] ++
        n.fieldBytes := by
  simp [Record.bytes, leBytes]

/-- Settles O4: the frames are decoded by evaluation, and the bytes of a record are those of its fields. -/
theorem layoutsOfTheTables : Obligations.LayoutsOfTheTables := by
  refine ⟨frames_decode, fun seq repeats priority address size value kinds p k w a => ⟨?_, ?_, ?_, ?_, ?_, ?_⟩⟩
  all_goals rw [record_bytes]; rfl

end Sys2Proof.NoticeRequests
end

section
/-! SUPPORT. Run ends (7.4 and 7.6): a segment's completion and an abort, in one equation for each outcome, the order of
a run-end notice and the next grant's indications (R111), an abort that waited for its segment (R132), and the
statements about them. -/

namespace Sys2Proof.RunEnds

open Sys2Proof Sys2Proof.Machine Sys2Proof.Claims Sys2Proof.AnchorsAndCursors Sys2Proof.DetachedPorts Sys2Proof.DueWork
  Sys2Proof.Posting

/-! ### The words of the statements -/

theorem spend_eq_spent (r : Runs) : r.spend = spent r := by
  cases r <;> rfl

theorem exhausted_iff (r : Runs) : r.exhausted = true ↔ r = .count 0 := beq_iff_eq

/-- A discarded latch changes collapsed alone (R122). -/
theorem discardLatch_eq (e : Channel) : e.discardLatch = { e with collapsed := discarded e } := by
  unfold Channel.discardLatch discarded
  split <;> rfl

/-! ### A channel's report -/

section Reports

variable (s : State) (post : RunEndPost) (k : ChannelId) (e e' : Channel) (kinds : Byte)

/-- The channel as its report leaves it (R129). -/
theorem channel_channelReports : (s.channelReports post k e kinds).channel k = { e with collapsed := 0 } := by
  have hk : (s.setChannel k { e with collapsed := 0 }).channel k = { e with collapsed := 0 } :=
    channel_setChannel_same s k _
  cases post with
  | atOnce => exact hk
  | afterNext => exact (congrArg (fun v : Vector Channel 4 => v[k]) (postLate_channels _)).trans hk

theorem channelReports_setPhase (phase : Phase) :
    (s.channelReports post k e kinds).setPhase k phase =
      (s.channelReports post k e kinds).setChannel k { e with collapsed := 0, phase := phase } := by
  rw [State.setPhase, channel_channelReports]

/-- What the channel was before its report does not matter. -/
theorem setChannel_channelReports :
    (s.setChannel k e').channelReports post k e kinds = s.channelReports post k e kinds := by
  simp only [State.channelReports, setChannel_setChannel]

/-- The report posted at once. -/
theorem channelReports_atOnce :
    (s.channelReports .atOnce k e kinds).setChannel k e' =
      (s.setChannel k e').postTo e.config.report (channelNotice k kinds e.config.priority e.counts) := by
  rw [State.channelReports, postRunEnd_atOnce, postTo_setChannel, setChannel_setChannel]

/-- The report kept, where no other notice is. -/
theorem channelReports_afterNext (h : s.lateNotice = none) :
    (s.channelReports .afterNext k e kinds).setChannel k e' =
      { s.setChannel k e' with
        lateNotice := some ⟨e.config.report, channelNotice k kinds e.config.priority e.counts⟩ } := by
  have hp : (s.setChannel k { e with collapsed := 0 }).postLate = s.setChannel k { e with collapsed := 0 } :=
    postLate_none h
  rw [State.channelReports, postRunEnd_afterNext, hp, ← setChannel_setChannel s k { e with collapsed := 0 } e']
  rfl

end Reports

/-! ### Run ends (R122, R126, R128 to R131) -/

section RunEnds

variable {s : State} {k : ChannelId} {moved : Option Nat}

/-- A completion that makes a report is posted at once or kept (R111). -/
theorem completesWith_report {x y : Channel} {kinds : Byte}
    (h : ∀ post, s.segmentCompletes k moved post = (s.channelReports post k x kinds).setChannel k y) :
    completesWith s k moved (s.setChannel k y) x.config.report (channelNotice k kinds x.config.priority x.counts) :=
  ⟨(h .atOnce).trans (channelReports_atOnce s k x y kinds),
    fun hn => (h .afterNext).trans (channelReports_afterNext s k x y kinds hn)⟩

/-- The channel once a run that counts has been taken off its runs left (R128, R130). -/
def spending (e : Channel) : Channel := { e with runsLeft := spent e.runsLeft }

/-- The channel once a segment of `n` bytes has been added to copied (R126). -/
def moving (e : Channel) (n : Nat) : Channel := { e with copied := e.copied + n }

theorem segmentCompletes_short (s : State) {n : Nat} (h : (s.channel k).copied + n < (s.channel k).config.length)
    (post : RunEndPost) : s.segmentCompletes k (some n) post = s.setChannel k (moving (s.channel k) n) := if_pos h

theorem segmentCompletes_whole (s : State) {n : Nat} (h : (s.channel k).config.length ≤ (s.channel k).copied + n)
    (post : RunEndPost) :
    s.segmentCompletes k (some n) post = (s.setChannel k (moving (s.channel k) n)).normalRunEnd post k :=
  if_neg (Nat.not_lt.mpr h)

theorem normalRunEnd_last {e : Channel} (h : spent e.runsLeft = .count 0) (post : RunEndPost) :
    (s.setChannel k e).normalRunEnd post k =
      (s.channelReports post k (spending e).discardLatch 3).setChannel k
        { (spending e).discardLatch with collapsed := 0, phase := .idle } := by
  unfold State.normalRunEnd
  simp only [channel_setChannel_same, spend_eq_spent]
  rw [if_pos ((exhausted_iff _).mpr h), channelReports_setPhase, setChannel_channelReports]
  rfl

theorem normalRunEnd_eachRun {e : Channel} (h : spent e.runsLeft ≠ .count 0) (hn : e.config.notify = .eachRun)
    (post : RunEndPost) :
    (s.setChannel k e).normalRunEnd post k =
      (s.channelReports post k (spending e) 1).setChannel k { spending e with collapsed := 0 }.rerun := by
  unfold State.normalRunEnd
  simp only [channel_setChannel_same, spend_eq_spent, hn, if_true]
  rw [if_neg (mt (exhausted_iff _).mp h), channel_channelReports, setChannel_channelReports]
  rfl

theorem normalRunEnd_lastRun {e : Channel} (h : spent e.runsLeft ≠ .count 0) (hn : e.config.notify = .lastRun)
    (post : RunEndPost) : (s.setChannel k e).normalRunEnd post k = s.setChannel k (spending e).rerun := by
  have hl : ¬ Notify.lastRun = .eachRun := Notify.noConfusion
  unfold State.normalRunEnd
  simp only [channel_setChannel_same, spend_eq_spent, hn, hl, if_false, setChannel_setChannel]
  rw [if_neg (mt (exhausted_iff _).mp h)]
  rfl

theorem segmentCompletes_refused (s : State) (k : ChannelId) (post : RunEndPost) :
    s.segmentCompletes k none post =
      (s.channelReports post k (spending (s.channel k)).discardLatch
        (if spent (s.channel k).runsLeft = .count 0 then 10 else 8)).setChannel k
        { (spending (s.channel k)).discardLatch with
          collapsed := 0
          phase := if spent (s.channel k).runsLeft = .count 0 then .idle else .armed } := by
  unfold State.segmentCompletes State.faultedRunEnd
  simp only [spend_eq_spent, exhausted_iff, channelReports_setPhase]
  split <;> rfl

theorem abort_running (h : (s.channel k).inRun = true) :
    s.abort k =
      (s.setChannel k { s.channel k with phase := .idle, collapsed := 0 }).postTo (s.channel k).config.report
        (runNotice k 4 (s.channel k).config.priority (s.channel k).copied (discarded (s.channel k))
          (s.channel k).runsLeft) := by
  unfold State.abort
  simp only [h, if_true]
  rw [channelReports_setPhase, channelReports_atOnce, discardLatch_eq]
  rfl

theorem abort_at_rest (h : (s.channel k).inRun = false) :
    s.abort k = s.setChannel k { s.channel k with phase := .idle } := by
  unfold State.abort
  simp only [h]
  rfl

theorem abort_phase (s : State) (k : ChannelId) : ((s.abort k).channel k).phase = .idle := by
  cases h : (s.channel k).inRun with
  | false => rw [abort_at_rest h, channel_setChannel_same]
  | true => rw [abort_running h, channel_postTo_frame, channel_setChannel_same]

/-- A run end changes no owner. -/
theorem normalRunEnd_owner (s : State) (k : ChannelId) (e : Channel) (post : RunEndPost) :
    (((s.setChannel k e).normalRunEnd post k).channel k).owner = e.owner := by
  by_cases h : spent e.runsLeft = .count 0
  · rw [normalRunEnd_last h, channel_setChannel_same]
    exact discardLatch_owner _
  · cases hn : e.config.notify with
    | eachRun =>
      rw [normalRunEnd_eachRun h hn, channel_setChannel_same]
      exact rerun_owner _
    | lastRun =>
      rw [normalRunEnd_lastRun h hn, channel_setChannel_same]
      exact rerun_owner _

theorem segmentCompletes_owner (s : State) (k : ChannelId) (moved : Option Nat) (post : RunEndPost) :
    ((s.segmentCompletes k moved post).channel k).owner = (s.channel k).owner := by
  cases moved with
  | none =>
    rw [segmentCompletes_refused, channel_setChannel_same]
    exact discardLatch_owner _
  | some n =>
    by_cases h : (s.channel k).copied + n < (s.channel k).config.length
    · rw [segmentCompletes_short s h, channel_setChannel_same]
      rfl
    · rw [segmentCompletes_whole s (Nat.le_of_not_lt h), normalRunEnd_owner]
      rfl

end RunEnds

/-- The channel that a normal run end with runs left leaves (R128). -/
theorem rerun_spec (e : Channel) :
    (e.phase = .runningLatched → e.rerun.phase = .running ∧ e.rerun.copied = 0) ∧
    (e.phase ≠ .runningLatched → e.rerun.phase = .armed ∧ e.rerun.copied = e.copied) ∧
    e.rerun.owner = e.owner ∧ e.rerun.config = e.config ∧ e.rerun.runsLeft = e.runsLeft ∧
    e.rerun.collapsed = e.collapsed := by
  unfold Channel.rerun
  split
  · next h => exact ⟨fun _ => ⟨rfl, rfl⟩, fun hn => absurd h hn, rfl, rfl, rfl, rfl⟩
  · next h => exact ⟨fun hl => absurd hl h, fun _ => ⟨rfl, rfl⟩, rfl, rfl, rfl, rfl⟩

/-- Settles O29: the equations of a segment's completion, by the run end it makes. -/
theorem segmentCompletionAndRunEnds : Obligations.SegmentCompletionAndRunEnds := by
  rintro s k e n rfl
  refine ⟨fun h post => segmentCompletes_short s h post, fun h => ⟨fun hx => ?last, fun hx => ?rerun⟩, ?refused⟩
  case last =>
    have hc := completesWith_report (fun post => (segmentCompletes_whole s h post).trans
      (normalRunEnd_last (e := moving (s.channel k) n) hx post))
    simp only [discardLatch_eq, spending, moving, hx] at hc
    exact hc
  case rerun =>
    have hw := segmentCompletes_whole s h
    cases hn : (s.channel k).config.notify with
    | eachRun =>
      have hc := completesWith_report (fun post =>
        (hw post).trans (normalRunEnd_eachRun (e := moving (s.channel k) n) hx hn post))
      obtain ⟨hlatched, hother, howner, hconfig, hruns, hcollapsed⟩ :=
        rerun_spec { spending (moving (s.channel k) n) with collapsed := 0 }
      exact ⟨_, hlatched, hother, howner, hconfig, hruns, fun _ => ⟨hcollapsed, hc⟩, fun h => Notify.noConfusion h⟩
    | lastRun =>
      have hc (post : RunEndPost) := (hw post).trans (normalRunEnd_lastRun (e := moving (s.channel k) n) hx hn post)
      obtain ⟨hlatched, hother, howner, hconfig, hruns, hcollapsed⟩ := rerun_spec (spending (moving (s.channel k) n))
      exact ⟨_, hlatched, hother, howner, hconfig, hruns, fun h => Notify.noConfusion h, fun _ => ⟨hcollapsed, hc⟩⟩
  case refused =>
    have hc := completesWith_report (segmentCompletes_refused s k)
    simp only [discardLatch_eq, spending] at hc
    exact hc

/-! ### An abort that waited for its segment (R132) -/

section Abort

variable {s : State} {p : PortId} {k : ChannelId}

theorem execAbortAfterSegment_eq (hl : s.lapsesDue = []) (hf : (s.port p).inFlight = some (.afterSegment k)) :
    execAbortAfterSegment p s = .next ((s.completeAccess .atOnce).applyDeferredFirst p) := by
  unfold execAbortAfterSegment
  simp only [hf, finishLapses_none hl]

/-- The completion of the segment does not see what waits for it. -/
theorem applyDeferredFirst_segment {moved : Option Nat} (hg : s.grant = some (.segment k moved)) :
    (s.completeAccess .atOnce).applyDeferredFirst p =
      (({ s with grant := none, deferredOrder := s.deferredOrder.erase (.request p) } : State).segmentCompletes k moved
        .atOnce).applyDeferred p := by
  have hb := blind_segmentCompletes k moved .atOnce
  have hc : s.completeAccess .atOnce = ({ s with grant := none } : State).segmentCompletes k moved .atOnce := by
    simp only [State.completeAccess, hg]
  have ho : (s.completeAccess .atOnce).deferredOrder = s.deferredOrder := by
    rw [hc]
    exact hb.deferredOrder _
  have hd := hb.withDeferredOrder { s with grant := none } (s.deferredOrder.erase (.request p))
  unfold State.applyDeferredFirst
  rw [ho, hc]
  exact congrArg (fun t : State => t.applyDeferred p) hd.symm

theorem applyDeferredFirst_free (hg : s.grant = none) (hf : (s.port p).inFlight = some (.afterSegment k)) :
    (s.completeAccess .atOnce).applyDeferredFirst p =
      applied p (.abortChannel (BitVec.ofNat 8 k.val))
        { s with deferredOrder := s.deferredOrder.erase (.request p) } := by
  have hc : s.completeAccess .atOnce = s := by simp only [State.completeAccess, hg]
  rw [hc]
  exact applyDeferred_abort (s := { s with deferredOrder := s.deferredOrder.erase (.request p) }) hf

theorem applyAbortChannel_owned (h : (s.channel k).owner = .owned p) :
    applyAbortChannel p (BitVec.ofNat 8 k.val) s = .done (s.abort k) := by
  simp [applyAbortChannel, index?_ofNat (by decide) k, h]

/-- The abort of a port that owns the channel, applied. -/
theorem applyDeferred_abort_owned (hf : (s.port p).inFlight = some (.afterSegment k))
    (ho : (s.channel k).owner = .owned p) : s.applyDeferred p = (s.abort k).complete p .done [] := by
  have ha : applyRequest p (.abortChannel (BitVec.ofNat 8 k.val)) s = .done (s.abort k) := applyAbortChannel_owned ho
  rw [applyDeferred_abort hf, State.applyAndComplete, ha]
  rfl

end Abort

/-- Settles O48: the completion posts alone and keeps the owner, so that the abort meets its own channel and request. -/
theorem abortWaitsForSegment : Obligations.AbortWaitsForSegment := by
  rintro p k s b hl hf rfl
  have he : exec (.abortAfterSegment p) s = .next ((s.completeAccess .atOnce).applyDeferredFirst p) :=
    execAbortAfterSegment_eq hl hf
  refine ⟨fun moved hg ho => ?segment, fun hg => ?free⟩
  case segment =>
    generalize hb : ({ s with grant := none, deferredOrder := s.deferredOrder.erase (.request p) } : State) = b
    have hf' : ((b.segmentCompletes k moved .atOnce).port p).inFlight = some (.afterSegment k) := by
      rw [((posted_refl b).segmentCompletes k moved .atOnce).inFlight p, ← hb]
      exact hf
    have ho' : ((b.segmentCompletes k moved .atOnce).channel k).owner = .owned p := by
      rw [segmentCompletes_owner, ← hb]
      exact ho
    refine ⟨_, (b.segmentCompletes k moved .atOnce).abort k, rfl, ?_, abort_phase _ k, abort_at_rest, abort_running⟩
    rw [he, applyDeferredFirst_segment hg, hb, applyDeferred_abort_owned hf' ho']
  case free =>
    rw [he, applyDeferredFirst_free hg hf, ← hg]

/-! ### A run-end notice and the next grant's indications (R111) -/

/-- What a grant's beginning neither sees nor changes: the notice kept and the lapses due. -/
structure Kept where
  lateNotice : Option LateNotice
  lapsesDue : List WatchId

def keeping (c : Kept) (s : State) : State := { s with lateNotice := c.lateNotice, lapsesDue := c.lapsesDue }

/-- The beginning of a grant, with other things kept. -/
def Unaware (g : State → Host.Outcome State Fault Refusal) : Prop :=
  ∀ c s, g (keeping c s) = andThen (g s) (keeping c)

section Keeping

variable (c : Kept) (s : State)

theorem foldl_keeping {α : Type} {g : State → α → State} (hg : ∀ c s a, g (keeping c s) a = keeping c (g s a))
    (l : List α) : l.foldl g (keeping c s) = keeping c (l.foldl g s) := by
  induction l generalizing s with
  | nil => rfl
  | cons a l ih => rw [List.foldl_cons, hg, ih, List.foldl_cons]

theorem block_keeping (writer : Actor) (addrs : List Nat) (address size : Nat) (w : WatchId) :
    (keeping c s).block writer addrs address size w = keeping c (s.block writer addrs address size w) := by
  have hw : (keeping c s).watch w = s.watch w := rfl
  simp only [State.block, hw]
  split <;> rfl

theorem blockAll_keeping (writer : Actor) (addrs : List Nat) (address size : Nat) :
    (keeping c s).blockAll writer addrs address size = keeping c (s.blockAll writer addrs address size) :=
  foldl_keeping c s (fun c s w => block_keeping c s writer addrs address size w) watchIds

theorem triggerOnce_keeping (sent : BitVec 4) (k : Option ChannelId) :
    (keeping c s).triggerOnce sent k = (keeping c (s.triggerOnce sent k).1, (s.triggerOnce sent k).2) := by
  cases k with
  | none => rfl
  | some k =>
    simp only [triggerOnce_some]
    split <;> rfl

theorem matchWatch_keeping (pr : Presentation) (acc : State × BitVec 4) (w : WatchId) :
    matchWatch pr (keeping c acc.1, acc.2) w =
      (keeping c (matchWatch pr acc w).1, (matchWatch pr acc w).2) := by
  have hw : (keeping c acc.1).watch w = acc.1.watch w := rfl
  have ha : (keeping c acc.1).array = acc.1.array := rfl
  simp only [matchWatch, hw, ha]
  generalize (if pr.touchesRange (acc.1.watch w).config then pr.kinds (acc.1.watch w) acc.1.array else 0) = kinds
  split
  · rfl
  · split
    · rfl
    · exact triggerOnce_keeping c ((acc.1.setWatch w _).postTo _ _) acc.2 _

theorem matchAll_keeping (pr : Presentation) : (keeping c s).matchAll pr = keeping c (s.matchAll pr) := by
  have hf (ws : List WatchId) (acc : State × BitVec 4) : ws.foldl (matchWatch pr) (keeping c acc.1, acc.2) =
      (keeping c (ws.foldl (matchWatch pr) acc).1, (ws.foldl (matchWatch pr) acc).2) := by
    induction ws generalizing acc with
    | nil => rfl
    | cons w ws ih => rw [List.foldl_cons, matchWatch_keeping, ih, List.foldl_cons]
  unfold State.matchAll
  rw [hf watchIds (s, 0)]

theorem storeMotion_keeping (p : PortId) (motion : Option (CursorId × Nat)) :
    (keeping c s).storeMotion p motion = keeping c (s.storeMotion p motion) := by
  cases motion <;> rfl

theorem reportNullRef_keeping (p : PortId) (r : MemoryRequest) :
    (keeping c s).reportNullRef p r = keeping c (s.reportNullRef p r) := by
  have ha (a : AnchorId) : (keeping c s).anchor a = s.anchor a := rfl
  simp only [State.reportNullRef, ha]
  split
  · split
    · split <;> rfl
    · rfl
    · rfl
  · rfl
  · rfl

theorem holdArray_keeping (p : PortId) (code : ResultCode) (data : List Byte) :
    (keeping c s).holdArray p code data = keeping c (s.holdArray p code data) := rfl

theorem accessAt_keeping (p : PortId) (op : MemoryOp) (place : Place) :
    (keeping c s).accessAt p op place = keeping c (s.accessAt p op place) := by
  have hr : (keeping c s).runHeld (.port p) place.addrs = s.runHeld (.port p) place.addrs := rfl
  have hw : (keeping c s).watchHeld (.port p) place.addrs = s.watchHeld (.port p) place.addrs := rfl
  have ha : (keeping c s).array = s.array := rfl
  have hm (m : Memory) : ({ keeping c s with array := m } : State) = keeping c { s with array := m } := rfl
  simp only [State.accessAt, hr, hw, ha, hm, blockAll_keeping, storeMotion_keeping, matchAll_keeping,
    holdArray_keeping]
  split
  · rfl
  · split <;> rfl

theorem segmentAt_keeping (k : ChannelId) : (keeping c s).segmentAt k = keeping c (s.segmentAt k) := by
  have hk : (keeping c s).channel k = s.channel k := rfl
  have hr (addrs : List Nat) : (keeping c s).runHeld (.channel k) addrs = s.runHeld (.channel k) addrs := rfl
  have hw (addrs : List Nat) : (keeping c s).watchHeld (.channel k) addrs = s.watchHeld (.channel k) addrs := rfl
  have ha : (keeping c s).array = s.array := rfl
  have hm (m : Memory) : ({ keeping c s with array := m } : State) = keeping c { s with array := m } := rfl
  simp only [State.segmentAt, hk, hr, hw, ha, hm, blockAll_keeping, matchAll_keeping]
  split
  · rfl
  · split <;> rfl

end Keeping

/-- The beginning of a port's grant, from the arbiter's choice on. -/
def beginPort (p : PortId) (r : MemoryRequest) (s : State) : Host.Outcome State Fault Refusal :=
  beginAccess p r (s.advancePointer ⟨p.val, by omega⟩)

/-- The beginning of a segment's grant, from the arbiter's choice on. -/
def beginEngine (k : ChannelId) (s : State) : Host.Outcome State Fault Refusal := beginSegment k (s.advancePointer 4)

theorem unaware_beginPort (p : PortId) (r : MemoryRequest) : Unaware (beginPort p r) := by
  intro c s
  generalize hu : s.advancePointer ⟨p.val, by omega⟩ = u
  have hk : (keeping c s).advancePointer ⟨p.val, by omega⟩ = keeping c u := by rw [← hu]; rfl
  have hr : (keeping c u).resolve p r = u.resolve p r := rfl
  unfold beginPort beginAccess
  simp only [hu, hk, hr, reportNullRef_keeping, accessAt_keeping]
  cases u.resolve p r with
  | error code =>
    by_cases hc : code = .nullAnchor
    · simp only [hc, if_true]
      rfl
    · simp only [hc, if_false]
      rfl
  | ok place =>
    dsimp only
    split <;> rfl

theorem unaware_beginEngine (k : ChannelId) : Unaware (beginEngine k) := by
  intro c s
  have hk : ((keeping c s).advancePointer 4).channel k = (s.advancePointer 4).channel k := rfl
  have hs : State.segmentAt { (keeping c s).advancePointer 4 with enginePointer := k + 1 } k =
      keeping c (State.segmentAt { s.advancePointer 4 with enginePointer := k + 1 } k) :=
    segmentAt_keeping c { s.advancePointer 4 with enginePointer := k + 1 } k
  unfold beginEngine beginSegment
  simp only [hk, hs]
  split <;> rfl

/-- A grant of a port holds the array once it has begun. -/
theorem accessAt_grant (s : State) (p : PortId) (op : MemoryOp) (place : Place) :
    ∃ code data, (s.accessAt p op place).grant = some (.access p code data) := by
  unfold State.accessAt
  split
  · exact ⟨_, _, rfl⟩
  · split <;> exact ⟨_, _, rfl⟩

theorem beginPort_grant {s u : State} {p : PortId} {r : MemoryRequest} (h : beginPort p r s = .next u) :
    ∃ code data, u.grant = some (.access p code data) := by
  unfold beginPort beginAccess at h
  split at h
  · cases h
    exact ⟨_, _, rfl⟩
  · split at h
    · cases h
      exact accessAt_grant _ p _ _
    · cases h

theorem segmentAt_grant (s : State) (k : ChannelId) : ∃ moved, (s.segmentAt k).grant = some (.segment k moved) := by
  unfold State.segmentAt
  dsimp only
  split
  · exact ⟨_, rfl⟩
  · split <;> exact ⟨_, rfl⟩

theorem beginEngine_grant {s u : State} {k : ChannelId} (h : beginEngine k s = .next u) :
    ∃ moved, u.grant = some (.segment k moved) := by
  unfold beginEngine beginSegment at h
  dsimp only at h
  split at h
  · cases h
    exact segmentAt_grant _ k
  · cases h

section Orders

variable {s t u : State} {l : LateNotice} {g : State → Host.Outcome State Fault Refusal}

/-- What is kept stays kept while a grant begins. -/
theorem Unaware.kept (hg : Unaware g) (h : g s = .next u) :
    u.lateNotice = s.lateNotice ∧ u.lapsesDue = s.lapsesDue := by
  have hu := hg ⟨s.lateNotice, s.lapsesDue⟩ s
  have hs : keeping ⟨s.lateNotice, s.lapsesDue⟩ s = s := rfl
  rw [hs, h] at hu
  injection hu with hu
  rw [hu]
  exact ⟨rfl, rfl⟩

/-- A grant that begins while a notice is kept makes all its own indications first, and the kept notice is posted then
(R111). -/
theorem Unaware.posts_after (hg : Unaware g) (ht : t = { s with lateNotice := none }) (hl : s.lateNotice = some l)
    (h : g t = .next u) (after : State → State) :
    andThen (g s) (fun v => after v.postLate) = .next (after (u.postTo l.ports l.notice)) := by
  have hs : s = keeping ⟨some l, t.lapsesDue⟩ t := by
    rw [ht, ← hl]
    rfl
  have hu : keeping ⟨none, t.lapsesDue⟩ u = u := by
    obtain ⟨hn, hd⟩ := hg.kept h
    have hn : u.lateNotice = none := by rw [hn, ht]
    rw [← hn, ← hd]
    rfl
  have hp : (keeping ⟨some l, t.lapsesDue⟩ u).postLate = (keeping ⟨none, t.lapsesDue⟩ u).postTo l.ports l.notice :=
    postLate_some rfl
  rw [hs, hg, h]
  exact congrArg (fun v => Host.Outcome.next (after v)) (hp.trans (by rw [hu]))

/-- Where no notice is kept, a grant that begins is left as it began. -/
theorem begins_next (hs : t.settled) (hg : Unaware g)
    (h : andThen (g t) (fun v => id v.postLate) = .next u) : g t = .next u := by
  obtain ⟨-, hn, -⟩ := hs
  cases hx : g t with
  | next v =>
    rw [hx] at h
    injection h with h
    have hv : v.lateNotice = none := (hg.kept hx).1.trans hn
    rw [← h]
    exact congrArg Host.Outcome.next (postLate_none hv).symm
  | fault r =>
    rw [hx] at h
    cases h
  | refused r =>
    rw [hx] at h
    cases h

theorem grantMemory_chosen {p : PortId} {r : MemoryRequest} (hc : s.memoryChoice = some (p, r))
    (after : State → State) : grantMemory after s = andThen (beginPort p r s) (fun v => after v.postLate) := by
  unfold grantMemory
  simp only [hc]
  rfl

theorem grantSegment_chosen {k : ChannelId} (hc : s.segmentChoice = some k) (after : State → State) :
    grantSegment after s = andThen (beginEngine k s) (fun v => after v.postLate) := by
  unfold grantSegment
  simp only [hc]
  rfl

/-- Once a grant has begun, nothing is due until its access completion. -/
theorem Unaware.settled_postTo (hg : Unaware g) (h : g t = .next u) (ht : t.settled) {x : Grant} (hx : u.grant = some x)
    (set : BitVec 4) (n : Notice) : (u.postTo set n).settled := by
  obtain ⟨hn, hd⟩ := hg.kept h
  exact settled_of_granted (hd.trans ht.1) (hn.trans ht.2.1) hx

theorem execMemoryGrant_ends_granted (hs : s.settled) {p : PortId} {code : ResultCode} {data : List Byte}
    (hg : s.grant = some (.access p code data)) : execMemoryGrant .ends s = .next (s.completeAccess .atOnce) := by
  unfold execMemoryGrant
  simp only [settle_settled hs, State.endMemory, hg]

theorem execSegmentGrant_ends_granted (hs : s.settled) {k : ChannelId} {moved : Option Nat}
    (hg : s.grant = some (.segment k moved)) (post : RunEndPost) :
    execSegmentGrant (.ends post) s = .next (s.completeAccess post) := by
  unfold execSegmentGrant
  simp only [settle_settled hs, State.endSegment, hg]

theorem clearWay_of_settled (hs : t.settled) : t.clearWay = t := by
  obtain ⟨hd, -, hw⟩ := hs
  exact clearWay_settled hd hw

/-- A kept notice is not in a grant's way (R111). -/
theorem clearWay_kept (ht : t = { s with lateNotice := none }) (hs : t.settled) : s.clearWay = s := by
  obtain ⟨hd, -, hw⟩ := hs
  rw [ht] at hd hw
  exact clearWay_settled hd hw

/-- A port's grant while a notice is kept. -/
theorem memoryGrant_posts_after (ht : t = { s with lateNotice := none }) (hs : t.settled) (hl : s.lateNotice = some l)
    (hc : t.memoryChoice ≠ none) (hu : execMemoryGrant .begins t = .next u) :
    execMemoryGrant .begins s = .next (u.postTo l.ports l.notice) ∧
    execMemoryGrant .whole s = execMemoryGrant .ends (u.postTo l.ports l.notice) := by
  obtain ⟨⟨p, r⟩, hc⟩ := Option.ne_none_iff_exists'.mp hc
  have hcs : s.memoryChoice = some (p, r) := by rw [← hc, ht]; rfl
  have hws := clearWay_kept ht hs
  have hg := unaware_beginPort p r
  simp only [execMemoryGrant, clearWay_of_settled hs, grantMemory_chosen hc] at hu
  have hb := begins_next hs hg hu
  obtain ⟨code, data, hx⟩ := beginPort_grant hb
  rw [execMemoryGrant_ends_granted (hg.settled_postTo hb hs hx _ _) hx]
  simp only [execMemoryGrant, hws, grantMemory_chosen hcs]
  exact ⟨hg.posts_after ht hl hb id, hg.posts_after ht hl hb _⟩

/-- A segment's grant while a notice is kept. -/
theorem segmentGrant_posts_after (ht : t = { s with lateNotice := none }) (hs : t.settled) (hl : s.lateNotice = some l)
    (hc : t.segmentChoice ≠ none) (hu : execSegmentGrant .begins t = .next u) :
    execSegmentGrant .begins s = .next (u.postTo l.ports l.notice) ∧
    ∀ post, execSegmentGrant (.whole post) s = execSegmentGrant (.ends post) (u.postTo l.ports l.notice) := by
  obtain ⟨k, hc⟩ := Option.ne_none_iff_exists'.mp hc
  have hcs : s.segmentChoice = some k := by rw [← hc, ht]; rfl
  have hws := clearWay_kept ht hs
  have hg := unaware_beginEngine k
  simp only [execSegmentGrant, clearWay_of_settled hs, grantSegment_chosen hc] at hu
  have hb := begins_next hs hg hu
  obtain ⟨moved, hx⟩ := beginEngine_grant hb
  refine ⟨?_, fun post => ?_⟩
  · simp only [execSegmentGrant, hws, grantSegment_chosen hcs]
    exact hg.posts_after ht hl hb id
  · rw [execSegmentGrant_ends_granted (hg.settled_postTo hb hs hx _ _) hx]
    simp only [execSegmentGrant, hws, grantSegment_chosen hcs]
    exact hg.posts_after ht hl hb _

/-- A grant that the arbiter would not make posts the kept notice alone. -/
theorem memoryGrant_posts_alone (hws : s.clearWay = s) (hl : s.lateNotice = some l) (hc : s.memoryChoice = none) :
    execMemoryGrant .whole s = .next (({ s with lateNotice := none } : State).postTo l.ports l.notice) := by
  unfold execMemoryGrant grantMemory
  simp only [hws, hc, postLate_some hl]

theorem segmentGrant_posts_alone (hws : s.clearWay = s) (hl : s.lateNotice = some l) (hc : s.segmentChoice = none)
    (post : RunEndPost) :
    execSegmentGrant (.whole post) s = .next (({ s with lateNotice := none } : State).postTo l.ports l.notice) := by
  unfold execSegmentGrant grantSegment
  simp only [hws, hc, postLate_some hl]

end Orders

/-- Settles O35: the beginning of a grant neither sees nor posts the kept notice, which is posted right after it. -/
theorem runEndNoticeTakenInEitherOrder : Obligations.RunEndNoticeTakenInEitherOrder := by
  refine ⟨fun s u k moved set n hl hn hg hc => ?completion, fun s t l ht hs hg hl => ?grant⟩
  case completion =>
    have hs : s.settled := settled_of_granted hl hn hg
    exact ⟨(execSegmentGrant_ends_segment .atOnce hs hg).trans (congrArg _ hc.1),
      (execSegmentGrant_ends_segment .afterNext hs hg).trans (congrArg _ (hc.2 hn))⟩
  case grant =>
    have hw := clearWay_kept ht hs
    refine ⟨fun u => memoryGrant_posts_after ht hs hl, fun u => segmentGrant_posts_after ht hs hl, ?_, ?_⟩
    · subst ht
      exact memoryGrant_posts_alone (s := s) hw hl
    · subst ht
      exact segmentGrant_posts_alone (s := s) hw hl

end Sys2Proof.RunEnds
end

section
/-! SUPPORT. The channel requests (7.2, 7.3 and 7.6): SET_CHANNEL's checks and the configuration it carries, one equation
for each outcome of each request, and the four statements about them. -/

namespace Sys2Proof.ChannelRequests

open Sys2Proof Sys2Proof.Machine Sys2Proof.Claims Sys2Proof.AnchorsAndCursors Sys2Proof.WatchRequests Sys2Proof.RunEnds

/-! ### The checks of SET_CHANNEL (R117) -/

/-- The parameters but the channel number are in their ranges, and the two ranges share no address (R117). -/
structure ChannelAdmitted (b : ChannelBytes) : Prop where
  source : b.source.toNat < 32768
  destination : b.destination.toNat < 32768
  length : 1 ≤ b.length.toNat ∧ b.length.toNat ≤ 4096
  sourceEnd : b.source.toNat + b.length.toNat ≤ 32768
  destinationEnd : b.destination.toNat + b.length.toNat ≤ 32768
  apart : b.destination.toNat + b.length.toNat ≤ b.source.toNat ∨
    b.source.toNat + b.length.toNat ≤ b.destination.toNat
  priority : 1 ≤ b.priority.toNat ∧ b.priority.toNat ≤ 7
  report : b.report.toNat < 16

/-- The configuration that the parameters carry (Table 9-2). -/
def carriedConfig (b : ChannelBytes) : ChannelConfig where
  source := b.source.toNat
  destination := b.destination.toNat
  length := b.length.toNat
  sourceHold := b.flags.getLsbD 0
  budget := b.budget.toNat
  notify := if b.flags.getLsbD 1 = true then .lastRun else .eachRun
  priority := b.priority.toNat
  report := b.report.setWidth 4

theorem rangesMeet_iff (source destination length : Nat) :
    rangesMeet source destination length = true ↔ source < destination + length ∧ destination < source + length := by
  simp only [rangesMeet, Bool.and_eq_true, decide_eq_true_eq]

section Checks

variable {b : ChannelBytes} {k : ChannelId} {x : ChannelId × ChannelConfig}

/-- Parameters that name a channel pass the other checks exactly when they are in their ranges. -/
theorem channelConfig?_eq_some_iff (hk : index? 4 b.channel = some k) :
    channelConfig? b = some x ↔ ChannelAdmitted b ∧ x = (k, carriedConfig b) := by
  simp only [channelConfig?, carriedConfig, hk, rangesMeet_iff, Config.arraySize, Config.runLimit]
  generalize (if b.flags.getLsbD 1 = true then Notify.lastRun else Notify.eachRun) = notify
  split_ifs with hstart hlength hend hmeet hpriority hreport
  · exact iff_of_false id (fun ⟨ha, _⟩ => by have := ha.source; have := ha.destination; omega)
  · exact iff_of_false id (fun ⟨ha, _⟩ => by have := ha.length; omega)
  · exact iff_of_false id (fun ⟨ha, _⟩ => by have := ha.sourceEnd; have := ha.destinationEnd; omega)
  · exact iff_of_false id (fun ⟨ha, _⟩ => by have := ha.apart; omega)
  · exact iff_of_false id (fun ⟨ha, _⟩ => by have := ha.priority; omega)
  · exact iff_of_false id (fun ⟨ha, _⟩ => absurd ha.report (Nat.not_lt.mpr hreport))
  · have ha : ChannelAdmitted b :=
      ⟨by omega, by omega, by omega, by omega, by omega, by omega, by omega, by omega⟩
    rw [Option.some.injEq, eq_comm]
    exact (and_iff_right ha).symm

/-- Channel `k` is named and every other parameter is in its range. -/
theorem channelConfig?_of_admitted (hk : k.val = b.channel.toNat) (ha : ChannelAdmitted b) :
    channelConfig? b = some (k, carriedConfig b) := by
  have hi : index? 4 b.channel = some k := by
    rw [index?_eq_some (hk ▸ k.isLt)]
    exact congrArg some (Fin.ext hk.symm)
  exact (channelConfig?_eq_some_iff hi).mpr ⟨ha, rfl⟩

/-- A SET_CHANNEL that passes its first check names a channel and has its parameters in their ranges. -/
theorem admitted_of_channelConfig? (h : channelConfig? b = some x) :
    b.channel.toNat < 4 ∧ ChannelAdmitted b ∧ x.2 = carriedConfig b := by
  cases hi : index? 4 b.channel with
  | none => simp [channelConfig?, hi] at h
  | some k =>
    obtain ⟨ha, rfl⟩ := (channelConfig?_eq_some_iff hi).mp h
    exact ⟨val_of_index? hi ▸ k.isLt, ha, rfl⟩

/-- The first check of SET_CHANNEL fails where some parameter is out of its range. -/
theorem channelConfig?_eq_none (h : ¬ (b.channel.toNat < 4 ∧ ChannelAdmitted b)) : channelConfig? b = none := by
  refine Option.eq_none_iff_forall_ne_some.mpr (fun x hx => h ?_)
  obtain ⟨hk, ha, -⟩ := admitted_of_channelConfig? hx
  exact ⟨hk, ha⟩

end Checks

/-! ### The requests, an equation for each outcome (R117, R118, R121, R131) -/

section Outcomes

variable {p : PortId} {s : State} {k : ChannelId}

theorem applySetChannel_badParameter {b : ChannelBytes} (h : channelConfig? b = none) :
    applySetChannel p b s = .answer s .badParameter := by
  simp only [applySetChannel, h]

theorem applySetChannel_named {b : ChannelBytes} {c : ChannelConfig} (h : channelConfig? b = some (k, c)) :
    applySetChannel p b s =
      if (s.channel k).owner ≠ .owned p then .answer s .notOwner
      else if (s.channel k).phase ≠ .idle then .answer s .channelBusy
      else .done (s.setChannel k
        { s.channel k with config := c, runsLeft := .count 0, copied := 0, collapsed := 0 }) := by
  simp only [applySetChannel, h]

theorem applyArmChannel_badNumber {n : Byte} (h : 4 ≤ n.toNat) : applyArmChannel p n s = .answer s .badParameter := by
  simp only [applyArmChannel, index?_eq_none h]

theorem applyArmChannel_named :
    applyArmChannel p (BitVec.ofNat 8 k.val) s =
      if (s.channel k).owner ≠ .owned p then .answer s .notOwner
      else if (s.channel k).phase ≠ .idle then .answer s .channelBusy
      else if (s.channel k).config.length = 0 then .answer s .badParameter
      else .done (s.setChannel k
        { s.channel k with runsLeft := (s.channel k).config.runs, collapsed := 0, phase := .armed }) := by
  simp only [applyArmChannel, index?_ofNat (n := 4) (by decide)]

theorem applyStartChannel_badNumber {n : Byte} (h : 4 ≤ n.toNat) :
    applyStartChannel p n s = .answer s .badParameter := by
  simp only [applyStartChannel, index?_eq_none h]

theorem applyStartChannel_named :
    applyStartChannel p (BitVec.ofNat 8 k.val) s =
      if (s.channel k).owner ≠ .owned p then .answer s .notOwner
      else if (s.channel k).phase = .idle then .answer s .notArmed
      else .done (s.setChannel k (s.channel k).trigger) := by
  simp only [applyStartChannel, index?_ofNat (n := 4) (by decide)]
  rfl

theorem applyAbortChannel_badNumber {n : Byte} (h : 4 ≤ n.toNat) :
    applyAbortChannel p n s = .answer s .badParameter := by
  simp only [applyAbortChannel, index?_eq_none h]

theorem applyAbortChannel_notOwner (h : (s.channel k).owner ≠ .owned p) :
    applyAbortChannel p (BitVec.ofNat 8 k.val) s = .answer s .notOwner := by
  simp only [applyAbortChannel, index?_ofNat (n := 4) (by decide), if_pos h]

/-! A trigger by the channel's state (R120). -/

theorem trigger_idle {e : Channel} (h : e.phase = .idle) : e.trigger = e := by
  simp only [Channel.trigger, h]

theorem trigger_armed {e : Channel} (h : e.phase = .armed) : e.trigger = { e with phase := .running, copied := 0 } := by
  simp only [Channel.trigger, h]

theorem trigger_running {e : Channel} (h : e.phase = .running) : e.trigger = { e with phase := .runningLatched } := by
  simp only [Channel.trigger, h]

theorem trigger_latched {e : Channel} (h : e.phase = .runningLatched) :
    e.trigger = { e with collapsed := countUp 255 e.collapsed } := by
  simp only [Channel.trigger, h]
  rfl

theorem inRun_iff (e : Channel) : e.inRun = true ↔ e.phase = .running ∨ e.phase = .runningLatched := by
  simp only [Channel.inRun, Bool.or_eq_true, beq_iff_eq]

/-- An abort leaves an IDLE channel as it stands. -/
theorem abort_idle (h : (s.channel k).phase = .idle) : s.abort k = s := by
  have hr : (s.channel k).inRun = false := by simp [Channel.inRun, h]
  have he : { s.channel k with phase := .idle } = s.channel k := by rw [← h]
  rw [abort_at_rest hr, he]
  simp [State.setChannel, State.channel]

end Outcomes

/-! ### The requests at their frame ends -/

section AtFrameEnd

variable {s : State} {f : Frame} {code : Byte} {r : Request} {n : Nat}

/-- A channel request performed: it replaces one channel. -/
theorem channelFrame_sets {k : ChannelId} {e : Channel} (h : s.serves f.port) (hb : f.bits = 8 * n)
    (he : expectedLength code 0 = some n)
    (hx : applyRequest f.port r (s.taken f) = .done ((s.taken f).setChannel k e)) :
    requestFrame f code .request r s = .next ((s.setChannel k e).answered f .done []) := by
  rw [← complete_setChannel_taken]
  exact requestFrame_answers h hb he FrameKind.noConfusion FrameKind.noConfusion hx

theorem post_frame (q : Port) (m : Notice) : (q.post m).frame = q.frame := by
  have h : q.post m = (q.post m).withFrameSide q.slot q.inFlight q.frame q.shifted := post_frameSide q m _ _ _ _
  rw [h]
  rfl

/-- A notice posted while the request is applied does not see its frame side. -/
theorem complete_postTo_taken (s : State) (f : Frame) (set : BitVec 4) (m : Notice) :
    ((s.taken f).postTo set m).complete f.port .done [] = (s.postTo set m).answered f .done [] := by
  have hq : (s.taken f).port f.port = (s.port f.port).withFrameSide ⟨f.tag, .pending, []⟩
      (s.port f.port).inFlight none ((s.port f.port).frame.map (fun o => ⟨o.header, f.bits⟩)) := taken_port s f
  refine complete_mapPorts_taken s f _ _ .done [] (fun _ _ => rfl) ?_ ?_
  all_goals
    rw [hq]
    split
  · rw [post_frameSide]
    rfl
  · rfl
  · rw [post_frameSide, post_frame]
    rfl
  · rfl

end AtFrameEnd

/-- Settles O25: a SET_CHANNEL sets the channel where the parameters are in their ranges, the port owns it and it is
IDLE; else it is refused by the first check that fails. -/
theorem setChannelReplacesConfiguration : Obligations.SetChannelReplacesConfiguration := by
  refine ⟨fun f k b s hs hb ho hi hk hsource hdestination hlow hhigh hse hde hapart hp1 hp7 hreport => ?sets,
    fun f b s hs hb => ⟨fun hbad => ?badParameter,
      fun k hk hsource hdestination hlow hhigh hse hde hapart hp1 hp7 hreport => ?named⟩⟩
  case sets =>
    have hv : k.val = b.channel.toNat := val_of_index? (hk ▸ index?_ofNat (by decide) k)
    have hc := channelConfig?_of_admitted hv
      ⟨hsource, hdestination, ⟨hlow, hhigh⟩, hse, hde, hapart, ⟨hp1, hp7⟩, hreport⟩
    have hx := (applySetChannel_named (s := s.taken f) hc).trans
      ((if_neg (not_not_intro ho)).trans (if_neg (not_not_intro hi)))
    simp only [taken_channel, ho, hi] at hx
    exact channelFrame_sets hs hb rfl hx
  case badParameter =>
    refine watchFrame_refused hs hb rfl (applySetChannel_badParameter (channelConfig?_eq_none ?_))
    rintro ⟨hk, hsource, hdestination, hlength, hse, hde, hapart, hpriority, hreport⟩
    omega
  case named =>
    have hc := channelConfig?_of_admitted hk
      ⟨hsource, hdestination, ⟨hlow, hhigh⟩, hse, hde, hapart, ⟨hp1, Nat.le_of_lt_succ hp7⟩, hreport⟩
    refine ⟨fun ho => ?_, fun ho hi => ?_⟩
    · exact watchFrame_refused hs hb rfl ((applySetChannel_named hc).trans (if_pos ho))
    · exact watchFrame_refused hs hb rfl
        ((applySetChannel_named hc).trans ((if_neg (not_not_intro ho)).trans (if_pos hi)))

/-- Settles O26: the outcomes of `applyArmChannel`, taken to their frame ends. -/
theorem armChannelLoadsBudget : Obligations.ArmChannelLoadsBudget := by
  refine fun f s hs hb => ⟨fun n hn => ?_, fun k => ⟨fun ho => ?_, fun ho => ?_⟩⟩
  · exact watchFrame_refused hs hb rfl (applyArmChannel_badNumber hn)
  · exact watchFrame_refused hs hb rfl (applyArmChannel_named.trans (if_pos ho))
  · have hx := (applyArmChannel_named (s := s.taken f)).trans (if_neg (not_not_intro ho))
    refine ⟨fun hi => ?busy, fun hi hl => ?unset, fun hi hl => ?arms⟩
    case busy => exact watchFrame_refused hs hb rfl (hx.trans (if_pos hi))
    case unset => exact watchFrame_refused hs hb rfl (hx.trans ((if_neg (not_not_intro hi)).trans (if_pos hl)))
    case arms => exact channelFrame_sets hs hb rfl (hx.trans ((if_neg (not_not_intro hi)).trans (if_neg hl)))

/-- Settles O27: the outcomes of `applyStartChannel`, with the trigger by the channel's state, taken to their frame
ends. -/
theorem startChannelTriggers : Obligations.StartChannelTriggers := by
  refine fun f s hs hb => ⟨fun n hn => ?_, fun k => ⟨fun ho => ?_, fun ho => ?_⟩⟩
  · exact watchFrame_refused hs hb rfl (applyStartChannel_badNumber hn)
  · exact watchFrame_refused hs hb rfl (applyStartChannel_named.trans (if_pos ho))
  · have hx := (applyStartChannel_named (s := s.taken f)).trans (if_neg (not_not_intro ho))
    have hsets {e : Channel} (hn : (s.channel k).phase ≠ .idle) (he : (s.channel k).trigger = e) :
        exec (.startChannel f (BitVec.ofNat 8 k.val)) s = .next ((s.setChannel k e).answered f .done []) := by
      subst he
      exact channelFrame_sets hs hb rfl (hx.trans (if_neg hn))
    refine ⟨fun hi => ?notArmed, fun ha => ?begins, fun hr => ?latches, fun hl => ?collapses⟩
    case notArmed => exact watchFrame_refused hs hb rfl (hx.trans (if_pos hi))
    case begins => exact hsets (by rw [ha]; exact Phase.noConfusion) (trigger_armed ha)
    case latches => exact hsets (by rw [hr]; exact Phase.noConfusion) (trigger_running hr)
    case collapses => exact hsets (by rw [hl]; exact Phase.noConfusion) (trigger_latched hl)

/-- Settles O28: the outcomes of `applyAbortChannel`, with the abort by the channel's state, taken to their frame
ends. -/
theorem abortChannelStopsRun : Obligations.AbortChannelStopsRun := by
  refine fun f s hs hb => ⟨fun n hn => ?_, ?_⟩
  · exact watchFrame_refused hs hb rfl (applyAbortChannel_badNumber hn)
  · rintro k e rfl
    refine ⟨fun ho => ?notOwner, fun ho => ?owned⟩
    case notOwner => exact watchFrame_refused hs hb rfl (applyAbortChannel_notOwner ho)
    case owned =>
      have hx : applyAbortChannel f.port (BitVec.ofNat 8 k.val) (s.taken f) = .done ((s.taken f).abort k) :=
        applyAbortChannel_owned ho
      refine ⟨fun hi => ?idle, fun ha => ?armed, fun hr => ?runs⟩
      case idle =>
        rw [abort_idle (s := s.taken f) hi] at hx
        exact requestFrame_no_effect hs hb rfl FrameKind.noConfusion FrameKind.noConfusion hx
      case armed =>
        rw [abort_at_rest (s := s.taken f) (by simp [Channel.inRun, ha])] at hx
        exact channelFrame_sets hs hb rfl hx
      case runs =>
        rw [abort_running (s := s.taken f) ((inRun_iff _).mpr hr)] at hx
        rw [← complete_postTo_taken]
        exact requestFrame_answers (x := .done _) hs hb rfl FrameKind.noConfusion FrameKind.noConfusion hx

end Sys2Proof.ChannelRequests
end

section
/-! SUPPORT. What a command can do to a channel (chapter 7): one list of changes for the requests and one for the
completion of a segment, and the invariants of channels and of the segment under way that these changes keep, which every
step keeps then. -/

namespace Sys2Proof.ChannelChanges

open Sys2Proof Sys2Proof.Machine Sys2Proof.Claims Sys2Proof.RequestEffects Sys2Proof.DueWork Sys2Proof.RunEnds
  Sys2Proof.ChannelRequests

/-! ### The changes of a channel -/

/-- What applying a request can leave of a channel `e`. -/
inductive Change (e : Channel) : Channel → Prop where
  | aside (o : Owner) (set : BitVec 4) : Change e { e with owner := o, config := { e.config with report := set } }
  | configured (c : ChannelConfig) (hi : e.phase = .idle) (hl : 0 < c.length) :
      Change e { e with config := c, runsLeft := .count 0, copied := 0, collapsed := 0 }
  | armed (hl : 0 < e.config.length) :
      Change e { e with runsLeft := e.config.runs, collapsed := 0, phase := .armed }
  | triggered : Change e e.trigger
  | stopped (n : Nat) : Change e { e with phase := .idle, collapsed := n }
  | released : Change e Channel.default

/-- What the completion of a segment, performed with its size or refused, can leave of its channel `e` (R126, R128,
R130). -/
inductive Completion (e : Channel) : Option Nat → Channel → Prop where
  | continues {n : Nat} (h : e.copied + n < e.config.length) : Completion e (some n) { e with copied := e.copied + n }
  | ends {n : Nat} (c : Nat) (h : e.config.length ≤ e.copied + n) :
      Completion e (some n) { e with
        copied := e.copied + n
        runsLeft := spent e.runsLeft
        collapsed := c
        phase := if spent e.runsLeft = .count 0 then .idle else .armed }
  | reruns {n : Nat} (c : Nat) (hx : spent e.runsLeft ≠ .count 0) :
      Completion e (some n) { e with copied := 0, runsLeft := spent e.runsLeft, collapsed := c, phase := .running }
  | refused (c : Nat) :
      Completion e none { e with
        runsLeft := spent e.runsLeft
        collapsed := c
        phase := if spent e.runsLeft = .count 0 then .idle else .armed }

theorem change_refl (e : Channel) : Change e e := .aside e.owner e.config.report

/-! ### Requests -/

/-- Each channel of `t` is that of `s` after one change. -/
def Changes (s t : State) : Prop := ∀ k, Change (s.channel k) (t.channel k)

theorem changes_refl (s : State) : Changes s s := fun k => change_refl (s.channel k)

theorem changes_setChannel {s : State} {k : ChannelId} {e : Channel} (he : Change (s.channel k) e) :
    Changes s (s.setChannel k e) := by
  intro j
  rw [channel_setChannel]
  split
  · next hj => exact hj ▸ he
  · exact change_refl _

/-- A check decides between two outcomes. -/
theorem changes_ite {s : State} {P : Prop} [Decidable P] {x y : Applied} (hx : Changes s x.state)
    (hy : Changes s y.state) : Changes s (if P then x else y).state := by
  split
  · exact hx
  · exact hy

section Requests

variable (p : PortId) (s : State)

theorem changes_leaveSets : Changes s (s.leaveSets p) := fun k => by
  rw [channel_leaveSets]
  exact .aside _ _

theorem changes_portReset : Changes s (s.portReset p) := by
  intro k
  have ho : (s.portReset p).channel k = (s.channel k).orphan p := tableMap_getElem _ s.channels k.val k.isLt
  rw [ho]
  exact .aside _ _

theorem changes_abort (k : ChannelId) : Changes s (s.abort k) := by
  cases h : (s.channel k).inRun with
  | true =>
    rw [abort_running h]
    exact changes_setChannel (.stopped 0)
  | false =>
    rw [abort_at_rest h]
    exact changes_setChannel (.stopped _)

/-- The length of an admitted SET_CHANNEL is not 0 (R117). -/
theorem length_pos_of_channelConfig? {b : ChannelBytes} {k : ChannelId} {c : ChannelConfig}
    (h : channelConfig? b = some (k, c)) : 0 < c.length := by
  obtain ⟨-, ha, rfl⟩ := admitted_of_channelConfig? h
  exact ha.length.1

theorem changes_applySetChannel (b : ChannelBytes) : Changes s (applySetChannel p b s).state := by
  unfold applySetChannel
  split
  · exact changes_refl s
  · next k c hc =>
    dsimp only
    split_ifs with ho hi
    · exact changes_refl s
    · exact changes_refl s
    · exact changes_setChannel (.configured c (not_not.mp hi) (length_pos_of_channelConfig? hc))

theorem changes_applyArmChannel (channel : Byte) : Changes s (applyArmChannel p channel s).state := by
  unfold applyArmChannel
  split
  · exact changes_refl s
  · dsimp only
    split_ifs with ho hi hl
    · exact changes_refl s
    · exact changes_refl s
    · exact changes_refl s
    · exact changes_setChannel (.armed (Nat.pos_of_ne_zero hl))

theorem changes_applyStartChannel (channel : Byte) : Changes s (applyStartChannel p channel s).state := by
  unfold applyStartChannel
  split
  · exact changes_refl s
  · exact changes_ite (changes_refl s) (changes_ite (changes_refl s) (changes_setChannel .triggered))

theorem changes_applyAbortChannel (channel : Byte) : Changes s (applyAbortChannel p channel s).state := by
  unfold applyAbortChannel
  split
  · exact changes_refl s
  · exact changes_ite (changes_refl s) (changes_abort s _)

theorem changes_setOwner (x : Entry) (o : Owner) : Changes s (s.setOwner x o) := by
  cases x with
  | anchor a => exact changes_refl s
  | watch w => exact changes_refl s
  | channel k => exact changes_setChannel (.aside o _)

theorem changes_releaseEntry (x : Entry) : Changes s (s.releaseEntry x) := by
  cases x with
  | anchor a => exact changes_refl s
  | watch w => exact changes_refl s
  | channel k => exact changes_setChannel .released

theorem changes_applyClaim (table index : Byte) : Changes s (applyClaim p table index s).state := by
  unfold applyClaim
  split
  · exact changes_refl s
  · exact changes_ite (changes_setOwner s _ _) (changes_refl s)

theorem changes_applyAdopt (table index : Byte) : Changes s (applyAdopt p table index s).state := by
  unfold applyAdopt
  split
  · exact changes_refl s
  · exact changes_ite (changes_setOwner s _ _) (changes_refl s)

theorem changes_applyRelease (table index : Byte) : Changes s (applyRelease p table index s).state := by
  unfold applyRelease
  split
  · exact changes_refl s
  · exact changes_ite (changes_refl s) (changes_ite (changes_refl s) (changes_releaseEntry s _))

theorem changes_applyQueryEntry (table index : Byte) : Changes s (applyQueryEntry p table index s).state := by
  unfold applyQueryEntry
  split <;> exact changes_refl s

/-! Requests of the other blocks touch no channel. -/

theorem changes_applyTakeNotice (mode : Byte) : Changes s (applyTakeNotice p mode s).state := by
  refine changes_ite (changes_refl s) ?_
  split
  · exact changes_refl s
  · exact changes_ite (changes_refl s) (changes_refl s)

theorem changes_applyFinishService : Changes s (applyFinishService p s).state := by
  unfold applyFinishService
  dsimp only
  split <;> exact changes_refl s

theorem changes_applySetAnchor (b : AnchorBytes) : Changes s (applySetAnchor p b s).state := by
  unfold applySetAnchor
  have h := changes_refl s
  split
  · exact changes_ite h (changes_ite h (changes_ite h (changes_ite h h)))
  · exact h

theorem changes_applyBindCursor (cursor anchor : Byte) (offset : Half) :
    Changes s (applyBindCursor p cursor anchor offset s).state := by
  unfold applyBindCursor
  have h := changes_refl s
  split
  · split
    · exact h
    · exact changes_ite h h
  · exact h

theorem changes_applyQueryCursor (cursor : Byte) : Changes s (applyQueryCursor p cursor s).state := by
  unfold applyQueryCursor
  split <;> exact changes_refl s

theorem changes_applySetWatch (b : WatchBytes) : Changes s (applySetWatch p b s).state := by
  unfold applySetWatch
  split
  · exact changes_refl s
  · exact changes_ite (changes_refl s) (changes_refl s)

theorem changes_applySubscribe (watch : Byte) : Changes s (applySubscribe p watch s).state := by
  unfold applySubscribe
  split
  · exact changes_refl s
  · exact changes_ite (changes_refl s) (changes_refl s)

theorem changes_applyUnsubscribe (watch : Byte) : Changes s (applyUnsubscribe p watch s).state := by
  unfold applyUnsubscribe
  split
  · exact changes_refl s
  · exact changes_ite (changes_refl s) (changes_refl s)

theorem changes_applyRequest (r : Request) : Changes s (applyRequest p r s).state := by
  have h := changes_refl s
  cases r with
  | attach => exact changes_ite (changes_leaveSets p s) (changes_portReset p s)
  | detach => exact changes_portReset p s
  | doze => exact changes_ite h h
  | setLevels threshold wake => exact changes_ite h h
  | clearFlags flags => exact changes_ite h h
  | takeNotice mode => exact changes_applyTakeNotice p s mode
  | finishService => exact changes_applyFinishService p s
  | setAnchor a => exact changes_applySetAnchor p s a
  | bindCursor cursor anchor offset => exact changes_applyBindCursor p s cursor anchor offset
  | queryCursor cursor => exact changes_applyQueryCursor p s cursor
  | setWatch w => exact changes_applySetWatch p s w
  | subscribe watch => exact changes_applySubscribe p s watch
  | unsubscribe watch => exact changes_applyUnsubscribe p s watch
  | setChannel c => exact changes_applySetChannel p s c
  | armChannel channel => exact changes_applyArmChannel p s channel
  | startChannel channel => exact changes_applyStartChannel p s channel
  | abortChannel channel => exact changes_applyAbortChannel p s channel
  | claim table index => exact changes_applyClaim p s table index
  | adopt table index => exact changes_applyAdopt p s table index
  | release table index => exact changes_applyRelease p s table index
  | queryEntry table index => exact changes_applyQueryEntry p s table index

end Requests

/-! ### The completion of a segment -/

section Completions

variable (s : State) (k : ChannelId) (post : RunEndPost)

/-- A report touches its own channel, the ports and the notice kept. -/
theorem channelReports_aside (x y : Channel) (kinds : Byte) :
    { (s.channelReports post k x kinds).setChannel k y with ports := s.ports, lateNotice := s.lateNotice } =
      s.setChannel k y := by
  rw [← setChannel_setChannel s k { x with collapsed := 0 } y]
  cases post with
  | atOnce => rfl
  | afterNext =>
    rw [State.channelReports, postRunEnd_afterNext]
    cases hl : s.lateNotice with
    | none =>
      rw [postLate_none (s := s.setChannel k { x with collapsed := 0 }) hl, ← hl]
      rfl
    | some l =>
      rw [postLate_some (s := s.setChannel k { x with collapsed := 0 }) hl, ← hl]
      rfl

/-- The channel that a normal run end with runs left leaves (R128). -/
theorem completion_rerun {e e' : Channel} {n : Nat} (hl : e.config.length ≤ e.copied + n)
    (hx : spent e.runsLeft ≠ .count 0) (he : ∃ c, e' = { spending (moving e n) with collapsed := c }) :
    Completion e (some n) e'.rerun := by
  obtain ⟨c, rfl⟩ := he
  have hends := Completion.ends c hl
  rw [if_neg hx] at hends
  unfold Channel.rerun
  split
  · exact .reruns c hx
  · exact hends

/-- A segment's completion changes its own channel, and the ports and the notice kept by its report. -/
theorem segmentCompletes_spec (moved : Option Nat) :
    ∃ e, Completion (s.channel k) moved e ∧
      { s.segmentCompletes k moved post with ports := s.ports, lateNotice := s.lateNotice } = s.setChannel k e := by
  cases moved with
  | none =>
    rw [segmentCompletes_refused, discardLatch_eq]
    exact ⟨_, .refused 0, channelReports_aside _ _ _ _ _ _⟩
  | some n =>
    by_cases hl : (s.channel k).copied + n < (s.channel k).config.length
    · rw [segmentCompletes_short s hl]
      exact ⟨_, .continues hl, rfl⟩
    · rw [segmentCompletes_whole s (Nat.le_of_not_lt hl)]
      by_cases hx : spent (s.channel k).runsLeft = .count 0
      · have hends := Completion.ends 0 (Nat.le_of_not_lt hl)
        rw [if_pos hx] at hends
        rw [normalRunEnd_last (e := moving (s.channel k) n) hx, discardLatch_eq]
        exact ⟨_, hends, channelReports_aside _ _ _ _ _ _⟩
      · cases hn : (s.channel k).config.notify with
        | eachRun =>
          rw [normalRunEnd_eachRun (e := moving (s.channel k) n) hx hn]
          exact ⟨_, completion_rerun (Nat.le_of_not_lt hl) hx ⟨0, rfl⟩, channelReports_aside _ _ _ _ _ _⟩
        | lastRun =>
          rw [normalRunEnd_lastRun (e := moving (s.channel k) n) hx hn]
          exact ⟨_, completion_rerun (Nat.le_of_not_lt hl) hx ⟨_, rfl⟩, rfl⟩

theorem segmentCompletes_array (moved : Option Nat) : (s.segmentCompletes k moved post).array = s.array := by
  obtain ⟨e, -, hspec⟩ := segmentCompletes_spec s k post moved
  have ha := congrArg State.array hspec
  exact ha

end Completions

/-! ### Invariants of channels -/

/-- What holds of every channel, and what fits a channel whose segment holds the array (`none`: refused): every change
keeps it, and the segment chosen next fits. -/
structure Invariant where
  holds : Channel → Prop
  fits : Channel → Option Nat → Prop
  change {e e' : Channel} : Change e e' → holds e → holds e'
  completion {e e' : Channel} {moved : Option Nat} : Completion e moved e' → holds e → fits e moved → holds e'
  trigger {e : Channel} {moved : Option Nat} : fits e moved → fits e.trigger moved
  refused {e : Channel} : e.hasBytes = true → fits e none
  performed {e : Channel} : e.hasBytes = true → fits e (some e.segmentSize)

/-- Every channel keeps the invariant, and a segment under way fits its channel. -/
def Sound (I : Invariant) (s : State) : Prop :=
  (∀ k, I.holds (s.channel k)) ∧ ∀ k moved, s.grant = some (.segment k moved) → I.fits (s.channel k) moved

/-- The same while no grant holds the array. -/
def Free (I : Invariant) (s : State) : Prop := s.grant = none ∧ ∀ k, I.holds (s.channel k)

section Operations

variable {I : Invariant} {s t : State}

theorem Free.sound (h : Free I s) : Sound I s := ⟨h.2, fun k moved hg => by cases h.1.symm.trans hg⟩

theorem Sound.free (h : Sound I s) (hg : s.grant = none) : Free I s := ⟨hg, h.1⟩

theorem Sound.congr (h : Sound I s) (hg : t.grant = s.grant) (hk : t.channels = s.channels) : Sound I t := by
  have hc : ∀ k, t.channel k = s.channel k := fun k => congrArg (fun v : Vector Channel 4 => v[k]) hk
  refine ⟨fun k => hc k ▸ h.1 k, fun k moved hs => ?_⟩
  rw [hc]
  exact h.2 k moved (hg.symm.trans hs)

/-! ### Triggers, which come at any time -/

/-- Some channels are triggered, and the grant stands. -/
theorem Sound.of_triggers (h : Sound I s) (hg : t.grant = s.grant)
    (hk : ∀ k, t.channel k = s.channel k ∨ t.channel k = (s.channel k).trigger) : Sound I t := by
  refine ⟨fun k => ?_, fun k moved hs => ?_⟩
  · obtain hc | hc := hk k <;> rw [hc]
    · exact h.1 k
    · exact I.change .triggered (h.1 k)
  · have hf := h.2 k moved (hg.symm.trans hs)
    obtain hc | hc := hk k <;> rw [hc]
    · exact hf
    · exact I.trigger hf

theorem triggerOnce_channel (s : State) (sent : BitVec 4) (target : Option ChannelId) (k : ChannelId) :
    (s.triggerOnce sent target).1.channel k = s.channel k ∨
      (s.triggerOnce sent target).1.channel k = (s.channel k).trigger := by
  cases target with
  | none => exact .inl rfl
  | some j =>
    rw [triggerOnce_some]
    split
    · exact .inl rfl
    · rw [State.triggerChannel, channel_setChannel]
      split
      · next hj => exact .inr (hj ▸ rfl)
      · exact .inl rfl

theorem Sound.lapseOf (h : Sound I s) (w : WatchId) : Sound I (s.lapseOf w) :=
  h.of_triggers ((blind_lapseOf w).grant s) (triggerOnce_channel _ s.tickTriggered (s.watch w).config.trigger)

theorem Sound.finishLapses (h : Sound I s) : Sound I s.finishLapses :=
  List.foldlRecOn (motive := Sound I) s.lapsesDue _ h (fun _ ht w _ => Sound.lapseOf ht w)

theorem Sound.nextLapse (h : Sound I s) : Sound I s.nextLapse := by
  unfold State.nextLapse
  split
  · exact h
  · exact h.lapseOf _

theorem Sound.countTick (h : Sound I s) : Sound I s.countTick := h

theorem matchAll_triggers (s : State) (pr : Presentation) (k : ChannelId) :
    (s.matchAll pr).channel k = s.channel k ∨ (s.matchAll pr).channel k = (s.channel k).trigger := by
  rw [matchAll_channel]
  split
  · exact .inr rfl
  · exact .inl rfl

theorem Sound.matchAll (h : Sound I s) (pr : Presentation) : Sound I (s.matchAll pr) :=
  h.of_triggers (matchAll_grant s pr) (matchAll_triggers s pr)

theorem Sound.postLate (h : Sound I s) : Sound I s.postLate := h.congr (postLate_grant s) (postLate_channels s)

/-! ### Requests, and what waited for an access completion -/

theorem Free.of_changes (h : Free I s) (hg : t.grant = s.grant) (hk : Changes s t) : Free I t :=
  ⟨hg.trans h.1, fun k => I.change (hk k) (h.2 k)⟩

theorem Free.applyAndComplete (h : Free I s) (p : PortId) (r : Request) : Free I (s.applyAndComplete p r) :=
  h.of_changes ((blind_applyAndComplete p r).grant s) (changes_applyRequest p s r)

theorem Free.applyDeferred (h : Free I s) (p : PortId) : Free I (s.applyDeferred p) := by
  unfold State.applyDeferred
  split
  · exact h.applyAndComplete p _
  · exact h.applyAndComplete p _
  · exact h

theorem Free.wholeTick (h : Free I s) : Free I s.wholeTick :=
  h.sound.countTick.finishLapses.free ((congrArg Surroundings.grant (finishLapses_around s.countTick)).trans h.1)

theorem Free.applyWaiting (h : Free I s) (d : Deferred) : Free I (s.applyWaiting d) := by
  cases d with
  | request p => exact h.applyDeferred p
  | tick => exact h.wholeTick

theorem Free.foldWaiting (h : Free I s) (ds : List Deferred) : Free I (ds.foldl State.applyWaiting s) :=
  List.foldlRecOn ds _ h (fun _ ht d _ => Free.applyWaiting ht d)

theorem Free.withDeferredOrder (h : Free I s) (ds : List Deferred) : Free I { s with deferredOrder := ds } := h

theorem Free.applyDeferredUpTo (h : Free I s) (p : PortId) : Free I (s.applyDeferredUpTo p) :=
  ((h.withDeferredOrder _).foldWaiting _).applyDeferred p

theorem Free.applyDeferredFirst (h : Free I s) (p : PortId) : Free I (s.applyDeferredFirst p) :=
  (h.withDeferredOrder _).applyDeferred p

theorem Sound.afterCompletion (h : Sound I s) : Sound I s.afterCompletion := by
  unfold State.afterCompletion
  split
  · exact h
  · next hg => exact (((h.free hg).withDeferredOrder []).foldWaiting s.deferredOrder).sound

theorem Sound.clearWay (h : Sound I s) : Sound I s.clearWay := h.finishLapses.afterCompletion

theorem Sound.settle (h : Sound I s) : Sound I s.settle := h.finishLapses.postLate.afterCompletion

/-! ### Access completions -/

theorem Free.segmentCompletes (h : Free I s) {k : ChannelId} {moved : Option Nat} (hf : I.fits (s.channel k) moved)
    (post : RunEndPost) : Free I (s.segmentCompletes k moved post) := by
  obtain ⟨e, he, hspec⟩ := segmentCompletes_spec s k post moved
  have hg := congrArg State.grant hspec
  refine ⟨hg.trans h.1, fun j => ?_⟩
  have hj := congrArg (fun t : State => t.channel j) hspec
  change (s.segmentCompletes k moved post).channel j = _ at hj
  rw [hj, channel_setChannel]
  split
  · exact I.completion he (h.2 k) hf
  · exact h.2 j

/-- Once the access has completed, the array is free. -/
theorem Sound.completeAccess (h : Sound I s) (post : RunEndPost) : Free I (s.completeAccess post) := by
  have hn : Free I { s with grant := none } := ⟨rfl, h.1⟩
  unfold State.completeAccess
  split
  · next hg => exact h.free hg
  · exact hn
  · next k moved hg => exact hn.segmentCompletes (h.2 k moved hg) post

theorem Sound.endMemory (h : Sound I s) : Sound I s.endMemory := by
  unfold State.endMemory
  split
  · exact (h.completeAccess _).sound
  · exact h

theorem Sound.endSegment (h : Sound I s) (post : RunEndPost) : Sound I (s.endSegment post) := by
  unfold State.endSegment
  split
  · exact (h.completeAccess _).sound
  · exact h

/-! ### The beginning of a grant -/

theorem aside_channels (h : { t with watches := s.watches, ports := s.ports } = s) : t.channels = s.channels := by
  have hk := congrArg State.channels h
  exact hk

theorem blockAll_channels (s : State) (writer : Actor) (addrs : List Nat) (address size : Nat) :
    (s.blockAll writer addrs address size).channels = s.channels :=
  aside_channels (blockAll_spec s writer addrs address size).1

theorem Sound.blockAll (h : Sound I s) (writer : Actor) (addrs : List Nat) (address size : Nat) :
    Sound I (s.blockAll writer addrs address size) :=
  h.congr (blockAll_grant s writer addrs address size) (blockAll_channels s writer addrs address size)

theorem Sound.withArray (h : Sound I s) (m : Memory) : Sound I { s with array := m } := h

theorem Sound.advancePointer (h : Sound I s) (r : Requester) : Sound I (s.advancePointer r) := h

/-- A port's access is no segment. -/
theorem Sound.holdArray (h : Sound I s) (p : PortId) (code : ResultCode) (data : List Byte) :
    Sound I (s.holdArray p code data) := ⟨h.1, fun k moved hg => by cases hg⟩

theorem Sound.storeMotion (h : Sound I s) (p : PortId) (motion : Option (CursorId × Nat)) :
    Sound I (s.storeMotion p motion) := by
  cases motion <;> exact h

theorem Sound.reportNullRef (h : Sound I s) (p : PortId) (r : MemoryRequest) : Sound I (s.reportNullRef p r) := by
  unfold State.reportNullRef
  split
  · split
    · split <;> exact h
    · exact h
    · exact h
  · exact h
  · exact h

theorem Sound.accessAt (h : Sound I s) (p : PortId) (op : MemoryOp) (place : Place) :
    Sound I (s.accessAt p op place) := by
  unfold State.accessAt
  split
  · exact h.holdArray p _ _
  · split
    · exact (h.blockAll _ _ _ _).holdArray p _ _
    · exact (((h.withArray _).storeMotion p place.motion).matchAll _).holdArray p _ _

theorem Sound.beginAccess (h : Sound I s) {p : PortId} {r : MemoryRequest} (ht : beginAccess p r s = .next t) :
    Sound I t := by
  unfold Machine.beginAccess at ht
  split at ht
  · cases ht
    split
    · exact (h.reportNullRef p r).holdArray p _ _
    · exact h.holdArray p _ _
  · split at ht
    · cases ht
      exact h.accessAt p _ _
    · cases ht

/-- A segment that fits its channel takes the array. -/
theorem Sound.withSegment (h : Sound I s) {k : ChannelId} {moved : Option Nat} (hf : I.fits (s.channel k) moved) :
    Sound I { s with grant := some (.segment k moved) } := by
  refine ⟨h.1, fun j m hg => ?_⟩
  cases hg
  exact hf

theorem fits_matchAll {k : ChannelId} {moved : Option Nat} (hf : I.fits (s.channel k) moved) (pr : Presentation) :
    I.fits ((s.matchAll pr).channel k) moved := by
  obtain hc | hc := matchAll_triggers s pr k <;> rw [hc]
  · exact hf
  · exact I.trigger hf

theorem Sound.segmentAt (h : Sound I s) {k : ChannelId} (hb : (s.channel k).hasBytes = true) :
    Sound I (s.segmentAt k) := by
  unfold State.segmentAt
  dsimp only
  split
  · exact h.withSegment (I.refused hb)
  · split
    · refine (h.blockAll _ _ _ _).withSegment ?_
      have hk := blockAll_channels s (.channel k) (s.channel k).segmentDestination
        (firstAddress (s.channel k).segmentDestination) (s.channel k).segmentSize
      rw [State.channel, hk]
      exact I.refused hb
    · refine Sound.withSegment (((h.withArray _).matchAll _).matchAll _) (fits_matchAll (fits_matchAll ?_ _) _)
      exact I.performed hb

theorem Sound.beginSegment (h : Sound I s) {k : ChannelId} (hb : (s.channel k).hasBytes = true)
    (ht : beginSegment k s = .next t) : Sound I t := by
  unfold Machine.beginSegment at ht
  dsimp only at ht
  split at ht
  · cases ht
    exact Sound.segmentAt (s := { s with enginePointer := k + 1 }) h hb
  · cases ht

/-- A SEGMENT_GRANT serves a channel with bytes to move (R124). -/
theorem hasBytes_of_segmentChoice {k : ChannelId} (hc : s.segmentChoice = some k) :
    (s.channel k).hasBytes = true := by
  unfold State.segmentChoice at hc
  split at hc
  · cases hc
  · split at hc
    · cases hc
    · exact List.find?_some (p := fun k => (s.channel k).hasBytes) hc

/-! ### Frames -/

theorem Sound.wakePort (h : Sound I s) (p : PortId) : Sound I (s.wakePort p) := by
  unfold State.wakePort
  split <;> exact h

theorem Sound.startFrame (h : Sound I s) (p : PortId) : Sound I (s.startFrame p) := Sound.wakePort (by exact h) p

theorem Sound.openFrame (h : Sound I s) (p : PortId) : Sound I (s.openFrame p) := by
  unfold State.openFrame
  split
  · exact h.wakePort p
  · exact h.startFrame p

theorem Sound.decide (h : Sound I s) (p : PortId) (tag : Byte) (v : Verdict) {take : State → State}
    (ht : Sound I (take s)) : Sound I (s.decide p tag v take) := by
  cases v with
  | taken => exact ht
  | _ => exact h

/-- A request waits while a segment holds the array. -/
theorem Sound.takeRequest (h : Sound I s) (p : PortId) (tag : Byte) (r : Request) :
    Sound I (s.takeRequest p tag r) := by
  have hp : Sound I (s.showPending p tag) := h
  unfold State.takeRequest
  split
  · next hg => exact ((hp.free hg).applyAndComplete p r).sound
  · exact h

theorem Sound.takeMemory (h : Sound I s) (p : PortId) (tag : Byte) (r : Except ResultCode MemoryRequest) :
    Sound I (s.takeMemory p tag r) := by
  cases r <;> exact h

/-- A frame end, where what takes its request keeps the invariant; without supply no channel changes. -/
theorem Sound.frameEnd (h : Sound I s) {p : PortId} {bits : Nat} {tag : Byte} {fits : Bool} {kind : FrameKind}
    {take : State → State} (ht : ∀ u, Sound I u → Sound I (take u))
    (he : frameEnd p bits tag fits kind take s = .next t) : Sound I t := by
  unfold Machine.frameEnd at he
  cases he
  split
  · have hc : Sound I ((s.settle.openFrame p).closeFrame p bits) := h.settle.openFrame p
    exact hc.decide p tag _ (ht _ hc)
  · exact h

theorem Sound.requestFrame (h : Sound I s) {f : Frame} {code : Byte} {kind : FrameKind} {r : Request}
    (he : requestFrame f code kind r s = .next t) : Sound I t :=
  h.frameEnd (fun _ hu => hu.takeRequest f.port f.tag r) he

theorem Sound.memoryFrame (h : Sound I s) {f : Frame} {fits : Bool} {target : TargetBytes} {op : Option MemoryOp}
    (he : memoryFrame f fits target op s = .next t) : Sound I t :=
  h.frameEnd (fun _ hu => hu.takeMemory f.port f.tag _) he

theorem Sound.untakenFrame (h : Sound I s) {p : PortId} {bits : Nat} {tag : Byte} {fits : Bool} {kind : FrameKind}
    (he : Machine.frameEnd p bits tag fits kind id s = .next t) : Sound I t :=
  h.frameEnd (fun _ hu => hu) he

theorem Sound.frameStart (h : Sound I s) {p : PortId} (he : execFrameStart p s = .next t) : Sound I t := by
  unfold execFrameStart at he
  cases he
  split
  · exact h.settle.startFrame p
  · exact h

/-! ### Grants, ticks and lapses as commands -/

theorem Sound.andThen {x : Host.Outcome State Fault Refusal} {g : State → State}
    (hx : ∀ u, x = .next u → Sound I (g u)) (he : andThen x g = .next t) : Sound I t := by
  cases x with
  | next u =>
    cases he
    exact hx u rfl
  | fault r => cases he
  | refused r => cases he

theorem Sound.grantMemory (h : Sound I s) {after : State → State} (ha : ∀ u, Sound I u → Sound I (after u))
    (he : grantMemory after s = .next t) : Sound I t := by
  unfold Machine.grantMemory at he
  split at he
  · cases he
    exact h.postLate
  · exact Sound.andThen (fun u hu => ha _ ((h.advancePointer _).beginAccess hu).postLate) he

theorem Sound.grantSegment (h : Sound I s) {after : State → State} (ha : ∀ u, Sound I u → Sound I (after u))
    (he : grantSegment after s = .next t) : Sound I t := by
  unfold Machine.grantSegment at he
  split at he
  · cases he
    exact h.postLate
  · next k hc =>
    have hb : (s.channel k).hasBytes = true := hasBytes_of_segmentChoice hc
    exact Sound.andThen (fun u hu => ha _ ((h.advancePointer 4).beginSegment hb hu).postLate) he

theorem Sound.memoryGrant (h : Sound I s) {span : GrantSpan} (he : execMemoryGrant span s = .next t) : Sound I t := by
  cases span with
  | whole => exact h.clearWay.grantMemory (fun _ hu => (hu.completeAccess _).sound) he
  | begins => exact h.clearWay.grantMemory (fun _ hu => hu) he
  | ends =>
    cases he
    exact h.settle.endMemory

theorem Sound.segmentGrant (h : Sound I s) {span : SegmentSpan} (he : execSegmentGrant span s = .next t) :
    Sound I t := by
  cases span with
  | whole post => exact h.clearWay.grantSegment (fun _ hu => (hu.completeAccess _).sound) he
  | begins => exact h.clearWay.grantSegment (fun _ hu => hu) he
  | ends post =>
    cases he
    exact h.settle.endSegment post

theorem Sound.deferredRequestApply (h : Sound I s) {p : PortId} (he : execDeferredRequestApply p s = .next t) :
    Sound I t := by
  unfold execDeferredRequestApply at he
  split at he
  · cases he
    exact ((h.finishLapses.completeAccess _).applyDeferredUpTo p).sound
  · cases he
    exact h.settle

theorem Sound.abortAfterSegment (h : Sound I s) {p : PortId} (he : execAbortAfterSegment p s = .next t) :
    Sound I t := by
  unfold execAbortAfterSegment at he
  split at he
  · cases he
    exact ((h.finishLapses.completeAccess _).applyDeferredFirst p).sound
  · cases he
    exact h.settle

theorem Sound.tick (h : Sound I s) (he : execTick s = .next t) : Sound I t := by
  have hs : Sound I s.settle := h.settle
  unfold execTick at he
  cases he
  split
  · exact hs
  · split
    · exact hs
    · exact hs.countTick

theorem Sound.lapse (h : Sound I s) (he : execLapse s = .next t) : Sound I t := by
  unfold execLapse at he
  cases he
  split
  · exact h.settle
  · exact h.nextLapse

/-! ### Power and device reset -/

/-- A reset leaves the channel defaults, which a RELEASE leaves too (R116). -/
theorem Sound.of_reset (h : Sound I s) (hg : t.grant = none) (hk : t.channels = State.reset.channels) : Free I t := by
  refine ⟨hg, fun k => ?_⟩
  have hd : t.channel k = Channel.default := by simp [State.channel, hk, State.reset]
  rw [hd]
  exact I.change .released (h.1 k)

theorem Sound.powerOn (h : Sound I s) : Sound I s.powerOn := (h.of_reset rfl rfl).sound

theorem Sound.deviceReset (h : Sound I s) : Sound I s.deviceReset := (h.of_reset rfl rfl).sound

theorem Sound.fillEnd (h : Sound I s) (he : execFillEnd s = .next t) : Sound I t := by
  unfold execFillEnd at he
  cases he
  split <;> exact h

theorem Sound.nresetAssertion (h : Sound I s) (he : execNresetAssertion s = .next t) : Sound I t := by
  unfold execNresetAssertion at he
  cases he
  split
  · exact h
  · split
    · exact h.deviceReset
    · exact h

theorem Sound.nresetRelease (h : Sound I s) (he : execNresetRelease s = .next t) : Sound I t := by
  unfold execNresetRelease at he
  cases he
  split
  · exact h
  · split
    · exact h
    · split <;> exact h

/-! ### Every command -/

theorem Sound.exec (h : Sound I s) {i : Instr} (he : exec i s = .next t) : Sound I t := by
  cases hr : requestOf i with
  | some x =>
    obtain ⟨f, code, r⟩ := x
    exact h.requestFrame ((exec_of_requestOf hr s).symm.trans he)
  | none =>
    cases i
    case powerOnReset =>
      cases he
      exact h.powerOn
    case fillEnd => exact h.fillEnd he
    case nresetAssertion => exact h.nresetAssertion he
    case nresetRelease => exact h.nresetRelease he
    case frameStart p => exact h.frameStart he
    case emptyFrame p => exact h.untakenFrame he
    case nop p bits => exact h.untakenFrame he
    case unknownCode f code => exact h.untakenFrame he
    case read f target size => exact h.memoryFrame he
    case write f target size data => exact h.memoryFrame he
    case exchange f target width expected new => exact h.memoryFrame he
    case fetchAdd f target width addend => exact h.memoryFrame he
    case memoryGrant span => exact h.memoryGrant he
    case segmentGrant span => exact h.segmentGrant he
    case abortAfterSegment p => exact h.abortAfterSegment he
    case deferredRequestApply p => exact h.deferredRequestApply he
    case tick => exact h.tick he
    case lapse => exact h.lapse he
    case supplyLoss =>
      cases he
      exact h.powerOn
    all_goals cases hr

/-- A step is a command on a state with a shorter queue, or nothing. -/
theorem Sound.step (h : Sound I s) (he : step s = .next t) : Sound I t := by
  unfold Machine.step at he
  split at he
  · cases he
    exact h
  · next c rest _ => exact Sound.exec (s := { s with pending := rest }) h he

end Operations

/-! ### Runs left (R115, R118, R128, R130) -/

/-- Runs left stay within the budget, and are 0 on an IDLE channel alone. -/
structure WithinBudget (e : Channel) : Prop where
  unlimited : e.runsLeft = .unlimited → e.config.budget = 0
  counted : ∀ n, e.runsLeft = .count n → n ≤ e.config.budget
  exhausted : e.runsLeft = .count 0 → e.phase = .idle

theorem budgetSound_iff (e : Channel) : e.budgetSound ↔ WithinBudget e := by
  obtain ⟨owner, config, runsLeft, phase⟩ := e
  cases runsLeft with
  | unlimited => exact ⟨fun h => ⟨fun _ => h, nofun, nofun⟩, fun h => h.unlimited rfl⟩
  | count n =>
    constructor
    · rintro ⟨hle, hidle, hzero⟩
      refine ⟨nofun, ?_, ?_⟩
      · rintro _ ⟨⟩
        change n ≤ config.budget
        by_cases hb : config.budget = 0
        · exact (hzero hb).le.trans (Nat.zero_le _)
        · exact hle hb
      · rintro ⟨⟩
        exact hidle rfl
    · intro h
      have hle : n ≤ config.budget := h.counted n rfl
      exact ⟨fun _ => hle, fun hn => h.exhausted (by rw [hn]), fun hb => Nat.eq_zero_of_le_zero (hle.trans hb.le)⟩

/-- An IDLE channel with runs left within its budget. -/
theorem withinBudget_idle {e e' : Channel} (h : WithinBudget e) (hr : e'.runsLeft = e.runsLeft)
    (hb : e'.config.budget = e.config.budget) (hi : e'.phase = .idle) : WithinBudget e' :=
  ⟨fun hu => hb.trans (h.unlimited (hr.symm.trans hu)), fun n hn => hb ▸ h.counted n (hr.symm.trans hn), fun _ => hi⟩

theorem trigger_runsLeft (e : Channel) : e.trigger.runsLeft = e.runsLeft := by
  unfold Channel.trigger
  split <;> rfl

theorem trigger_config (e : Channel) : e.trigger.config = e.config := by
  unfold Channel.trigger
  split <;> rfl

theorem WithinBudget.trigger {e : Channel} (h : WithinBudget e) : WithinBudget e.trigger := by
  obtain ⟨hunlimited, hcounted, hexhausted⟩ := h
  refine ⟨?_, ?_, fun hx => ?_⟩
  · rwa [trigger_runsLeft, trigger_config]
  · rwa [trigger_runsLeft, trigger_config]
  · rw [trigger_runsLeft] at hx
    rw [trigger_idle (hexhausted hx)]
    exact hexhausted hx

/-- ARM_CHANNEL loads runs left from the budget (R118). -/
theorem withinBudget_armed (e : Channel) (n : Nat) :
    WithinBudget { e with runsLeft := e.config.runs, collapsed := n, phase := .armed } := by
  by_cases hb : e.config.budget = 0
  · have hr : e.config.runs = .unlimited := if_pos hb
    rw [hr]
    exact ⟨fun _ => hb, nofun, nofun⟩
  · have hr : e.config.runs = .count e.config.budget := if_neg hb
    rw [hr]
    refine ⟨nofun, ?_, fun hx => absurd (Runs.count.inj hx) hb⟩
    rintro _ ⟨⟩
    exact le_rfl

theorem WithinBudget.change {e e' : Channel} (hc : Change e e') (h : WithinBudget e) : WithinBudget e' := by
  cases hc with
  | aside o set => exact ⟨h.unlimited, h.counted, h.exhausted⟩
  | configured c hi hl =>
    refine ⟨nofun, ?_, fun _ => hi⟩
    rintro _ ⟨⟩
    exact Nat.zero_le _
  | armed hl => exact withinBudget_armed e 0
  | triggered => exact h.trigger
  | stopped n => exact withinBudget_idle h rfl rfl rfl
  | released =>
    refine ⟨nofun, ?_, fun _ => rfl⟩
    rintro _ ⟨⟩
    exact Nat.zero_le _

/-- A run that counts is taken off runs left, and the last one leaves the channel IDLE (R128, R130). -/
theorem WithinBudget.spend {e e' : Channel} (h : WithinBudget e) (hr : e'.runsLeft = spent e.runsLeft)
    (hb : e'.config = e.config) (hi : spent e.runsLeft = .count 0 → e'.phase = .idle) : WithinBudget e' := by
  rw [← hr] at hi
  cases hl : e.runsLeft with
  | unlimited =>
    rw [hl] at hr
    exact ⟨fun _ => hb ▸ h.unlimited hl, fun n hn => (nomatch hr.symm.trans hn), hi⟩
  | count n =>
    rw [hl] at hr
    have hle := h.counted n hl
    refine ⟨fun hu => (nomatch hr.symm.trans hu), fun m hm => ?_, hi⟩
    have hmn : n - 1 = m := Runs.count.inj (hr.symm.trans hm)
    rw [hb]
    omega

theorem WithinBudget.completion {e e' : Channel} {moved : Option Nat} (hc : Completion e moved e')
    (h : WithinBudget e) : WithinBudget e' := by
  cases hc with
  | continues hl => exact ⟨h.unlimited, h.counted, h.exhausted⟩
  | ends c hl => exact h.spend rfl rfl (fun hx => if_pos hx)
  | reruns c hx => exact h.spend rfl rfl (fun h0 => absurd h0 hx)
  | refused c => exact h.spend rfl rfl (fun hx => if_pos hx)

/-- Runs left within the budget, whatever segment is under way. -/
def budgetInvariant : Invariant where
  holds := WithinBudget
  fits _ _ := True
  change := WithinBudget.change
  completion hc h _ := h.completion hc
  trigger _ := trivial
  refused _ := trivial
  performed _ := trivial

theorem budgetsSound_iff (s : State) : s.budgetsSound ↔ Sound budgetInvariant s :=
  (forall_congr' fun k => budgetSound_iff (s.channel k)).trans (and_iff_left fun _ _ _ => trivial).symm

/-! ### Runs and segments (R119, R123, R126) -/

/-- A run is to be made by a channel that is ARMED, and none is under way. -/
theorem runSound_at_rest {e : Channel} (hp : e.phase = .idle ∨ e.phase = .armed ∧ 0 < e.config.length)
    (hle : e.copied ≤ e.config.length) : e.runSound := by
  have hr : e.inRun = false := by
    obtain hi | ⟨ha, -⟩ := hp
    · simp [Channel.inRun, hi]
    · simp [Channel.inRun, ha]
  exact ⟨fun hn => (hp.resolve_left hn).2, hle, fun h => Bool.noConfusion (hr.symm.trans h)⟩

/-- A channel in a run that has bytes left to move. -/
theorem runSound_in_run {e : Channel} (hlt : e.copied < e.config.length) : e.runSound :=
  ⟨fun _ => Nat.zero_lt_of_lt hlt, hlt.le, fun _ => hlt⟩

theorem runSound_trigger {e : Channel} (h : e.runSound) : e.trigger.runSound := by
  have ⟨hlength, _, hbytes⟩ := h
  cases hp : e.phase with
  | idle => rwa [trigger_idle hp]
  | armed =>
    rw [trigger_armed hp]
    exact runSound_in_run (hlength (by rw [hp]; exact Phase.noConfusion))
  | running =>
    rw [trigger_running hp]
    exact runSound_in_run (hbytes ((inRun_iff e).mpr (.inl hp)))
  | runningLatched =>
    rw [trigger_latched hp]
    exact runSound_in_run (hbytes ((inRun_iff e).mpr (.inr hp)))

theorem runSound_change {e e' : Channel} (hc : Change e e') (h : e.runSound) : e'.runSound := by
  have hle : e.copied ≤ e.config.length := h.2.1
  cases hc with
  | aside o set => exact h
  | configured c hi hl => exact runSound_at_rest (.inl hi) (Nat.zero_le _)
  | armed hl => exact runSound_at_rest (.inr ⟨rfl, hl⟩) hle
  | triggered => exact runSound_trigger h
  | stopped n => exact runSound_at_rest (.inl rfl) hle
  | released => exact runSound_at_rest (.inl rfl) le_rfl

/-- The segment under way is the next one of a channel in a run. -/
def InNextSegment (e : Channel) (moved : Option Nat) : Prop := e.inRun = true ∧ ∀ n ∈ moved, n = e.segmentSize

/-- A trigger of a channel in a run latches, or is counted: the next segment stands (R120). -/
theorem InNextSegment.trigger {e : Channel} {moved : Option Nat} (h : InNextSegment e moved) :
    InNextSegment e.trigger moved := by
  obtain ⟨hr, hn⟩ := h
  obtain hp | hp := (inRun_iff e).mp hr
  · rw [trigger_running hp]
    exact ⟨rfl, hn⟩
  · rw [trigger_latched hp]
    exact ⟨hr, hn⟩

theorem inNextSegment_of_hasBytes {e : Channel} {moved : Option Nat} (h : e.hasBytes = true)
    (hn : ∀ n ∈ moved, n = e.segmentSize) : InNextSegment e moved := by
  unfold Channel.hasBytes at h
  exact ⟨((Bool.and_eq_true _ _).mp h).1, hn⟩

/-- A run end with no run to follow leaves its channel IDLE or ARMED. -/
theorem ended_phase (P : Prop) [Decidable P] {length : Nat} (hl : 0 < length) :
    (if P then Phase.idle else .armed) = .idle ∨ (if P then Phase.idle else .armed) = .armed ∧ 0 < length := by
  split
  · exact .inl rfl
  · exact .inr ⟨rfl, hl⟩

theorem runSound_completion {e e' : Channel} {moved : Option Nat} (hc : Completion e moved e') (h : e.runSound)
    (hs : InNextSegment e moved) : e'.runSound := by
  have hlt : e.copied < e.config.length := h.2.2 hs.1
  have hpos : 0 < e.config.length := Nat.zero_lt_of_lt hlt
  cases hc with
  | continues hl => exact runSound_in_run hl
  | @ends n c hl =>
    have hle : e.copied + n ≤ e.config.length := by
      have hn : n = min Config.segmentLimit (e.config.length - e.copied) := hs.2 n rfl
      omega
    exact runSound_at_rest (ended_phase _ hpos) hle
  | reruns c hx => exact runSound_in_run hpos
  | refused c => exact runSound_at_rest (ended_phase _ hpos) hlt.le

/-- Runs and segments, where the segment under way is the next one of a channel in a run. -/
def runInvariant : Invariant where
  holds e := e.runSound
  fits := InNextSegment
  change := runSound_change
  completion := runSound_completion
  trigger := InNextSegment.trigger
  refused h := inNextSegment_of_hasBytes h nofun
  performed h := inNextSegment_of_hasBytes h (fun _ hn => (Option.mem_some.mp hn).symm)

theorem runsSound_iff (s : State) : s.runsSound ↔ Sound runInvariant s := Iff.rfl

/-- Settles O57: both are invariants of channels, which every step keeps. -/
theorem runsStayWithinBudget : Obligations.RunsStayWithinBudget := by
  refine ⟨fun s t hs he => ?budgets, fun s t hs he => ?runs⟩
  case budgets =>
    rw [budgetsSound_iff] at hs ⊢
    exact hs.step he
  case runs =>
    rw [runsSound_iff] at hs ⊢
    exact hs.step he

end Sys2Proof.ChannelChanges
end

section
/-! SUPPORT. The bytes that a segment moves (R123, R125, R126), and the statement about them. -/

namespace Sys2Proof.SegmentBytes

open Sys2Proof Sys2Proof.Machine Sys2Proof.Claims

/-- A block copied within the array, read at its destination: every source byte is read before any is stored. -/
theorem read_copied {m : Memory} {source destination n i : Nat} (hm : m.wf = true)
    (hd : inArray (span destination n) = true) (hi : i < n) :
    (m.writeAll (span destination n) (m.readAll (span source n))).read (destination + i) = m.read (source + i) := by
  have hall := Memory.readAll_writeAll (bytes := m.readAll (span source n)) hm hd List.nodup_range'
    (by simp [Memory.readAll, span])
  have hget := congrArg (fun bytes : List Byte => bytes[i]?) hall
  simpa [Memory.readAll, span, hi] using hget

/-- Outside its destination a copied block changes no byte. -/
theorem read_not_copied {m : Memory} {destination n a : Nat} {bytes : List Byte}
    (ha : a < destination ∨ destination + n ≤ a) : (m.writeAll (span destination n) bytes).read a = m.read a := by
  refine Memory.read_writeAll_other ?_
  rw [span, List.mem_range'_1]
  omega

/-- Settles O43: matching and the completion leave the array as the copy of the block has left it. -/
theorem segmentMovesBytes : Obligations.SegmentMovesBytes := by
  rintro s k e n post hc hlisted rfl rfl hr hw
  have he : exec (.segmentGrant (.whole post)) s = _ :=
    execSegmentGrant_performed post hc.settled hc.noGrant hc.chosen hc.source hc.destination hr hw
  refine ⟨_, he, fun i hi => ?moved, fun a ha => ?stands⟩
  all_goals rw [ChannelChanges.segmentCompletes_array, matchAll_array, matchAll_array]
  case moved => exact read_copied hlisted hc.destination hi
  case stands => exact read_not_copied ha

end Sys2Proof.SegmentBytes
end

section
/-! SUPPORT. Frame start, and the frames that are answered without effect (chapters 8 and 9): the frame end of a request
frame that fits its code, the checks of R156 that answer it, and the statements about them. -/

namespace Sys2Proof.FrameAnswers

open Sys2Proof Sys2Proof.Machine Sys2Proof.Claims Sys2Proof.RequestEffects Sys2Proof.NoticeRequests

/-! ### Frame start (R147, R153) -/

/-- Where nothing is due, a frame start is the capture of the header and the wake. -/
theorem execFrameStart_settled {s : State} (hp : s.supply = true) (hs : s.settled) (p : PortId) :
    execFrameStart p s = .next (s.startFrame p) := by
  unfold execFrameStart
  rw [if_pos hp, settle_settled hs]

theorem wakePort_dozing {s : State} {p : PortId} (h : (s.port p).mode = .dozing) :
    s.wakePort p = s.setMode p .attached := if_pos h

/-- A port made ATTACHED, nATTN following its threshold (R108). -/
theorem setMode_attached (s : State) (p : PortId) :
    s.setMode p .attached =
      s.modPort p (fun q => { q with mode := .attached, attention := reaches q.queue q.threshold }) :=
  modPort_congr s p _ _ (drive_attached rfl)

theorem startFrame_awake {s : State} {p : PortId} (h : (s.port p).mode ≠ .dozing) :
    s.startFrame p = s.modPort p (fun q => { q with frame := some ⟨s.header p, s.ready, false⟩ }) :=
  wakePort_awake (by rwa [port_modPort_same])

theorem startFrame_dozing {s : State} {p : PortId} (h : (s.port p).mode = .dozing) :
    s.startFrame p = s.modPort p (fun q =>
      { q with
        frame := some ⟨s.header p, s.ready, false⟩
        mode := .attached
        attention := reaches q.queue q.threshold }) := by
  unfold State.startFrame
  rw [wakePort_dozing (by rwa [port_modPort_same]), setMode_attached, modPort_modPort]

/-- Settles O6: nothing is due, and the port wakes after the capture or was awake. -/
theorem frameStartCapturesHeader : Obligations.FrameStartCapturesHeader := by
  refine fun p s hp hs => ⟨fun hm => ?awake, fun hm => ?dozing⟩
  case awake =>
    rw [← startFrame_awake hm]
    exact execFrameStart_settled hp hs p
  case dozing =>
    rw [← startFrame_dozing hm]
    exact execFrameStart_settled hp hs p

/-! ### A request frame that fits its code (R157) -/

/-- Only a WRITE frame's length depends on its size byte. -/
theorem frameFits_size {code : Byte} (h : code ≠ 0x11) (a b : Byte) (bits : Nat) :
    frameFits code a bits = frameFits code b bits := by
  have he : expectedLength code a = expectedLength code b := by simp only [expectedLength, if_neg h]
  unfold frameFits
  rw [he]

/-- The frame end of a request frame that fits: what R156 distinguishes of it is a request, and an ATTACH only where the
code says so. -/
def EndsFitting (i : Instr) (f : Frame) (code : Byte) : Prop :=
  ∃ (kind : FrameKind) (take : State → State), kind ≠ .nop ∧ kind ≠ .unknown ∧ (kind = .attach → code = 0x01) ∧
    ∀ s, exec i s = frameEnd f.port f.bits f.tag true kind take s

theorem requestOf_attach {i : Instr} {f : Frame} {code : Byte} (h : requestOf i = some (f, code, .attach)) :
    code = 0x01 := by
  cases i <;> cases h
  rfl

/-- A table, port or ownership request frame of the length its code asks for. -/
theorem endsFitting_of_requestOf {i : Instr} {f : Frame} {code : Byte} {r : Request}
    (hr : requestOf i = some (f, code, r)) (hf : frameFits code 0 f.bits = true) : EndsFitting i f code := by
  refine ⟨kindOf r, fun t => t.takeRequest f.port f.tag r, kindOf_ne_nop r, kindOf_ne_unknown r, fun hk => ?_,
    fun s => ?_⟩
  · obtain rfl := (kindOf_eq_attach_iff r).mp hk
    exact requestOf_attach hr
  · rw [exec_of_requestOf hr, requestFrame, hf]

/-- A memory request frame of the length its code asks for. -/
theorem endsFitting_of_memoryFrame {i : Instr} {f : Frame} {code : Byte} {fits : Bool} {t : TargetBytes}
    {op : Option MemoryOp} (hi : ∀ s, exec i s = memoryFrame f fits t op s) (hf : fits = true) :
    EndsFitting i f code := by
  subst hf
  exact ⟨.request, _, FrameKind.noConfusion, FrameKind.noConfusion, FrameKind.noConfusion, hi⟩

/-- A well-formed request frame that fits its code, the memory requests first. -/
theorem endsFitting {i : Instr} {f : Frame} {code : Byte} {params : List Byte}
    (hi : requestBytes i = some (f, code, params)) (hw : i.wellFormed = true)
    (hf : frameFits code (byteAt (code :: f.tag :: params) 6) f.bits = true) : EndsFitting i f code := by
  cases i with
  | read _ t size =>
    cases hi
    exact endsFitting_of_memoryFrame (fun _ => rfl) hf
  | write _ t size data =>
    cases hi
    have hs : frameFits 0x11 size f.bits = true := hf
    have hd : writeWellFormed f size data = true := (Bool.and_eq_true_iff.mp hw).2
    rw [writeWellFormed, hs] at hd
    exact endsFitting_of_memoryFrame (fun _ => rfl) (Bool.and_eq_true_iff.mpr ⟨hs, hd⟩)
  | exchange _ t width expected new =>
    cases hi
    exact endsFitting_of_memoryFrame (fun _ => rfl) hf
  | fetchAdd _ t width addend =>
    cases hi
    exact endsFitting_of_memoryFrame (fun _ => rfl) hf
  | _ =>
    cases hi <;> exact endsFitting_of_requestOf rfl ((frameFits_size (by decide) _ _ _).trans hf)

/-! ### The checks that answer a frame (R139, R156) -/

section Answers

variable {s : State} {f : Frame}

/-- A request answered at once, in one change of its port. -/
theorem answerNow_frameOver (s : State) (f : Frame) (code : ResultCode) :
    (s.frameOver f.port f.bits).answerNow f.port f.tag code = s.answered f code [] := complete_taken s f code []

/-- A frame end whose verdict is an unknown code completes BAD_REQUEST. -/
theorem frameEnd_unknownCode (ho : s.frameOpen f.port) (hi : (s.port f.port).inFlight = none) (hb : f.bits ≠ 0)
    (take : State → State) :
    frameEnd f.port f.bits f.tag true .unknown take s = .next (s.answered f .badRequest []) := by
  have hv : (s.port f.port).verdict f.bits true .unknown = .unknownCode := by
    rw [verdict_open ho, if_neg hb, if_neg (by decide), if_neg (by decide), hi, if_neg (by decide), if_pos rfl]
  unfold frameEnd
  rw [if_pos ho.1, endFrame_open ho, hv, ← answerNow_frameOver]
  rfl

/-- On a DETACHED port a request that is no ATTACH completes NOT_ATTACHED. -/
theorem frameEnd_notAttached (ho : s.frameOpen f.port) (hm : (s.port f.port).mode = .detached)
    (hi : (s.port f.port).inFlight = none) (hb : f.bits ≠ 0) {kind : FrameKind} (hn : kind ≠ .nop)
    (hu : kind ≠ .unknown) (ha : kind ≠ .attach) (take : State → State) :
    frameEnd f.port f.bits f.tag true kind take s = .next (s.answered f .notAttached []) := by
  have hv : (s.port f.port).verdict f.bits true kind = .notAttached := by
    rw [verdict_open ho, if_neg hb, if_neg (by decide), if_neg hn, hi, if_neg (by decide), if_neg hu,
      if_pos ⟨hm, ha⟩]
  unfold frameEnd
  rw [if_pos ho.1, endFrame_open ho, hv, ← answerNow_frameOver]
  rfl

end Answers

/-- Settles O9: an unknown code is answered before the port state is looked at, and a request on a DETACHED port before
it is taken. -/
theorem answeredWithoutEffect : Obligations.AnsweredWithoutEffect := by
  refine ⟨fun f code s ho hi hbytes hlong => ?unknown, fun i f code params s hr hw hc ho hm hi hf => ?detached⟩
  case unknown =>
    have hfit : (f.bits % 8 == 0 && decide (16 ≤ f.bits)) = true := by simp [hbytes, hlong]
    have he : exec (.unknownCode f code) s = frameEnd f.port f.bits f.tag true .unknown id s := by
      rw [← hfit]
      rfl
    rw [he]
    exact frameEnd_unknownCode ho hi (by omega) id
  case detached =>
    obtain ⟨kind, take, hn, hu, ha, he⟩ := endsFitting hr hw hf
    rw [he]
    exact frameEnd_notAttached ho hm hi (frameFits_pos hf) hn hu (fun hk => hc (ha hk)) take

end Sys2Proof.FrameAnswers
end

section
/-! SUPPORT. DOZE, SET_LEVELS and CLEAR_FLAGS (chapter 8): an equation for each outcome, and the statements about
them. -/

namespace Sys2Proof.PortRequests

open Sys2Proof Sys2Proof.Machine Sys2Proof.Claims Sys2Proof.Presence Sys2Proof.NoticeRequests

/-! ### The port after each request -/

/-- The port once it dozes: nATTN is released (R108, R145). -/
def dozing (q : Port) : Port := { q with mode := .dozing, attention := false }

/-- The port with new levels, nATTN driven from its new threshold (R148). -/
def leveled (threshold wake : Nat) (q : Port) : Port :=
  { q with threshold := threshold, wake := wake, attention := reaches q.queue threshold }

/-- The port with the flags named cleared (R149). -/
def flagsCleared (flags : Byte) (q : Port) : Port :=
  { q with
    overrun := if flags.getLsbD 3 = true then false else q.overrun
    busyRefused := if flags.getLsbD 2 = true then false else q.busyRefused
    frameFault := if flags.getLsbD 1 = true then false else q.frameFault }

theorem dozing_spares : SparesFrameSide dozing := ⟨fun _ => rfl, fun _ _ _ _ _ => rfl, fun _ => rfl⟩

theorem leveled_spares (threshold wake : Nat) : SparesFrameSide (leveled threshold wake) :=
  ⟨fun _ => rfl, fun _ _ _ _ _ => rfl, fun _ => rfl⟩

theorem flagsCleared_spares (flags : Byte) : SparesFrameSide (flagsCleared flags) :=
  ⟨fun _ => rfl, fun _ _ _ _ _ => rfl, fun _ => rfl⟩

/-! ### The conditions on the parameters -/

theorem wakeable_iff (q : Port) : q.wakeable = true ↔ ∃ r ∈ q.queue, q.wake ≤ r.notice.priority := by
  simp [Port.wakeable]

/-- The flag set names something that is no flag: a bit above bit 3, or bit 0 (Table 9-3). -/
theorem getLsbD_notFlags (i : Fin 8) : (0xF1 : Byte).getLsbD i.val = decide (i.val = 0 ∨ 4 ≤ i.val) := by
  revert i
  decide

theorem names_flags_only_iff (flags : Byte) :
    flags &&& 0xF1 = 0 ↔ ∀ i : Fin 8, i.val = 0 ∨ 4 ≤ i.val → flags.getLsbD i.val = false := by
  have hbit (i : Fin 8) : (flags &&& 0xF1).getLsbD i.val =
      (flags.getLsbD i.val && decide (i.val = 0 ∨ 4 ≤ i.val)) := by
    rw [BitVec.getLsbD_and, getLsbD_notFlags]
  constructor
  · intro h i hi
    have hb := hbit i
    rw [h, decide_eq_true hi, Bool.and_true] at hb
    exact hb.symm.trans BitVec.getLsbD_zero
  · intro h
    refine BitVec.eq_of_getLsbD_eq (fun i hi => ?_)
    rw [hbit ⟨i, hi⟩]
    by_cases hn : i = 0 ∨ 4 ≤ i
    · simp [h ⟨i, hi⟩ hn]
    · simp [hn]

/-- A flag stays unless it is named. -/
theorem keep_and_not (flag named : Bool) : (flag && !named) = if named = true then false else flag := by
  cases named <;> simp

/-! ### An equation for each outcome -/

section Outcomes

variable {p : PortId} {s : State}

theorem applyDoze_declined (h : ∃ r ∈ (s.port p).queue, (s.port p).wake ≤ r.notice.priority) :
    applyDoze p s = .answer s .dozeDeclined := if_pos ((wakeable_iff _).mpr h)

theorem applyDoze_dozes (h : ∀ r ∈ (s.port p).queue, r.notice.priority < (s.port p).wake) :
    applyDoze p s = .done (s.modPort p dozing) := by
  have hw : ¬ (s.port p).wakeable = true := by
    intro hw
    obtain ⟨r, hr, hle⟩ := (wakeable_iff _).mp hw
    exact absurd (h r hr) (Nat.not_lt.mpr hle)
  exact if_neg hw

theorem applySetLevels_sets {threshold wake : Byte} (hm : (s.port p).mode = .attached)
    (h : 1 ≤ threshold.toNat ∧ threshold.toNat ≤ 8 ∧ 1 ≤ wake.toNat ∧ wake.toNat ≤ 7) :
    applySetLevels p threshold wake s = .done (s.modPort p (leveled threshold.toNat wake.toNat)) := by
  have hd : Port.drive { s.port p with threshold := threshold.toNat, wake := wake.toNat } =
      leveled threshold.toNat wake.toNat (s.port p) := drive_attached hm
  unfold applySetLevels
  rw [if_neg (by omega)]
  exact congrArg Applied.done (modPort_congr s p _ _ hd)

theorem applySetLevels_badParameter {threshold wake : Byte}
    (h : ¬ (1 ≤ threshold.toNat ∧ threshold.toNat ≤ 8 ∧ 1 ≤ wake.toNat ∧ wake.toNat ≤ 7)) :
    applySetLevels p threshold wake s = .answer s .badParameter := if_pos (by omega)

theorem applyClearFlags_clears {flags : Byte}
    (h : ∀ i : Fin 8, i.val = 0 ∨ 4 ≤ i.val → flags.getLsbD i.val = false) :
    applyClearFlags p flags s = .done (s.modPort p (flagsCleared flags)) := by
  unfold applyClearFlags
  rw [if_neg (not_not.mpr ((names_flags_only_iff flags).mpr h))]
  simp only [keep_and_not]
  rfl

theorem applyClearFlags_badParameter {flags : Byte}
    (h : ∃ i : Fin 8, (i.val = 0 ∨ 4 ≤ i.val) ∧ flags.getLsbD i.val = true) :
    applyClearFlags p flags s = .answer s .badParameter := by
  obtain ⟨i, hi, hset⟩ := h
  refine if_pos (fun h0 => ?_)
  have hclear := (names_flags_only_iff flags).mp h0 i hi
  cases hset.symm.trans hclear

end Outcomes

/-! ### At their frame ends -/

theorem taken_wake (s : State) (f : Frame) : ((s.taken f).port f.port).wake = (s.port f.port).wake := by
  rw [taken_port]

/-- Settles O12: the outcomes of `applyDoze`, taken to their frame ends. -/
theorem dozeUnlessQueueReachesWakeLevel : Obligations.DozeUnlessQueueReachesWakeLevel := by
  refine fun f s hs hb => ⟨fun h => ?declined, fun h => ?dozes⟩
  case declined =>
    exact requestFrame_no_effect hs hb rfl (by decide) (by decide)
      (applyDoze_declined (by rwa [taken_queue, taken_wake]))
  case dozes =>
    exact requestFrame_changes_port hs hb rfl (by decide) (by decide) dozing_spares
      (applyDoze_dozes (by rwa [taken_queue, taken_wake]))

/-- Settles O13: the outcomes of `applySetLevels` and `applyClearFlags`, taken to their frame ends. -/
theorem setLevelsAndClearFlags : Obligations.SetLevelsAndClearFlags := by
  refine ⟨fun f threshold wake s hs hb => ⟨fun h => ?sets, fun h => ?levelOutOfRange⟩,
    fun f flags s hs hb => ⟨fun h => ?clears, fun h => ?noFlag⟩⟩
  case sets =>
    have hm : ((s.taken f).port f.port).mode = .attached :=
      (NoticeRequests.taken_mode s f).trans (mode_of_serves hs)
    exact requestFrame_changes_port hs hb rfl (by decide) (by decide) (leveled_spares _ _)
      (applySetLevels_sets hm h)
  case levelOutOfRange =>
    exact requestFrame_no_effect hs hb rfl (by decide) (by decide) (applySetLevels_badParameter h)
  case clears =>
    exact requestFrame_changes_port hs hb rfl (by decide) (by decide) (flagsCleared_spares flags)
      (applyClearFlags_clears h)
  case noFlag =>
    exact requestFrame_no_effect hs hb rfl (by decide) (by decide) (applyClearFlags_badParameter h)

end Sys2Proof.PortRequests
end

section
/-! SUPPORT. Request frames (R152, R157, R165): the values that multi-byte parameters carry, the bytes that the bits of
SDI carry, the length and the decoding of every request frame, and the statement about them. -/

namespace Sys2Proof.RequestFrames

open Sys2Proof Sys2Proof.Claims

/-! ### The values at the places of a frame (R165) -/

theorem halfOf_halfLo_halfHi (h : Half) : halfOf (halfLo h) (halfHi h) = h :=
  (BitVec.extractLsb'_append_extractLsb'_eq_extractLsb' rfl).trans BitVec.extractLsb'_eq_self

theorem quadOf_quadLo_quadHi (q : Quad) : quadOf (quadLo q) (quadHi q) = q :=
  (BitVec.extractLsb'_append_extractLsb'_eq_extractLsb' rfl).trans BitVec.extractLsb'_eq_self

/-- The four bytes of a value, lowest first, make it again. -/
theorem quadOf_halfOf_bytes (q : Quad) :
    quadOf (halfOf (halfLo (quadLo q)) (halfHi (quadLo q))) (halfOf (halfLo (quadHi q)) (halfHi (quadHi q))) = q := by
  rw [halfOf_halfLo_halfHi, halfOf_halfLo_halfHi, quadOf_quadLo_quadHi]

/-! ### The bytes of a frame decode to its command (Table 9-2) -/

/-- A frame of at least 8 bits has a code, and a frame written from a request command decodes to it by that code. -/
theorem decodeFrame_requestBytes {i : Instr} {f : Frame} {code : Byte} {params : List Byte}
    (hi : requestBytes i = some (f, code, params)) (hb : 8 ≤ f.bits) :
    decodeFrame f.port f.bits (code :: f.tag :: params) = i := by
  have h0 : ¬ f.bits = 0 := by omega
  have h8 : ¬ f.bits < 8 := by omega
  unfold decodeFrame
  rw [if_neg h0, if_neg h8]
  cases i <;> cases hi
  case exchange t width expected new =>
    exact congrArg₂ (Instr.exchange f t width) (quadOf_halfOf_bytes expected) (quadOf_halfOf_bytes new)
  case fetchAdd t width addend => exact congrArg (Instr.fetchAdd f t width) (quadOf_halfOf_bytes addend)
  case setAnchor a =>
    exact congrArg₂ (fun base length => Instr.setAnchor f ⟨a.anchor, base, length, a.ring, a.access⟩)
      (halfOf_halfLo_halfHi a.base) (halfOf_halfLo_halfHi a.length)
  case bindCursor cursor anchor offset =>
    exact congrArg (Instr.bindCursor f cursor anchor) (halfOf_halfLo_halfHi offset)
  case setWatch w =>
    refine congrArg (Instr.setWatch f) ((WatchBytes.mk.injEq ..).mpr ?_)
    exact ⟨rfl, rfl, halfOf_halfLo_halfHi w.start, halfOf_halfLo_halfHi w.stop, rfl, rfl, rfl, rfl,
      quadOf_halfOf_bytes w.reference, halfOf_halfLo_halfHi w.quietLimit, rfl, rfl⟩
  case setChannel c =>
    refine congrArg (Instr.setChannel f) ((ChannelBytes.mk.injEq ..).mpr ?_)
    exact ⟨rfl, halfOf_halfLo_halfHi c.source, halfOf_halfLo_halfHi c.destination, halfOf_halfLo_halfHi c.length,
      rfl, rfl, rfl, rfl⟩
  all_goals rfl

/-! ### The length of a frame (R157) -/

theorem bits_of_frameFits {code size : Byte} {bits n : Nat} (hf : frameFits code size bits = true)
    (he : expectedLength code size = some n) : bits = 8 * n := by
  unfold frameFits at hf
  rw [he] at hf
  exact eq_of_beq hf

/-- The expected length of a request frame counts its code, its tag and its parameters; for a WRITE the size byte
counts the data. -/
theorem expectedLength_requestBytes {i : Instr} {f : Frame} {code : Byte} {params : List Byte}
    (hi : requestBytes i = some (f, code, params)) (hw : i.wellFormed = true)
    (hf : frameFits code (byteAt (code :: f.tag :: params) 6) f.bits = true) :
    expectedLength code (byteAt (code :: f.tag :: params) 6) = some (code :: f.tag :: params).length := by
  cases i <;> cases hi
  case write t size data =>
    have hs : frameFits 0x11 size f.bits = true := hf
    have hd : writeWellFormed f size data = true := (Bool.and_eq_true_iff.mp hw).2
    rw [writeWellFormed, hs] at hd
    have hl : data.length = writeDataLength size := eq_of_beq hd
    have he : expectedLength 0x11 size = some (7 + writeDataLength size) := rfl
    rw [← hl, Nat.add_comm] at he
    exact he
  all_goals rfl

/-! ### Bits as they travel (R152) -/

/-- One more bit, most significant first. -/
theorem shiftRight_succ_append (n j : Nat) : 2 * (n >>> (j + 1)) + (n.testBit j).toNat = n >>> j := by
  rw [Nat.shiftRight_succ, Nat.toNat_testBit, ← Nat.shiftRight_eq_div_pow]
  exact Nat.div_add_mod _ 2

/-- Eight bits, most significant first, are the byte they were written from. -/
theorem byteOfBits_msbFirst (b : Byte) : byteOfBits (msbFirst b) = b := by
  have h8 : b.toNat >>> 8 = 0 := Nat.shiftRight_eq_zero _ _ b.isLt
  have hf : (msbFirst b).foldl (fun n b => 2 * n + b.toNat) (b.toNat >>> 8) = b.toNat := by
    simp only [msbFirst, List.foldl_cons, List.foldl_nil, BitVec.getLsbD, shiftRight_succ_append,
      Nat.shiftRight_zero]
  unfold byteOfBits
  rw [h8] at hf
  rw [hf, BitVec.ofNat_toNat, BitVec.setWidth_eq]

/-- The first eight bits are the first byte. -/
theorem bytesOfBits_msbFirst_append (b : Byte) (bits : List Bool) :
    bytesOfBits (msbFirst b ++ bits) = b :: bytesOfBits bits := by
  have hl : (msbFirst b ++ bits).length / 8 = bits.length / 8 + 1 := by
    rw [List.length_append, Nat.add_comm]
    exact Nat.add_div_right _ (by decide : 0 < 8)
  have hrest (i : Nat) : (msbFirst b ++ bits).drop (8 * (i + 1)) = bits.drop (8 * i) := by
    rw [Nat.mul_add, Nat.add_comm, ← List.drop_drop]
    rfl
  unfold bytesOfBits
  rw [hl, List.range_succ_eq_map, List.map_cons, List.map_map]
  refine congrArg₂ List.cons (byteOfBits_msbFirst b) (List.map_congr_left (fun i _ => ?_))
  exact congrArg (fun l : List Bool => byteOfBits (l.take 8)) (hrest i)

/-- The bits of bytes carry those bytes. -/
theorem bytesOfBits_flatMap_msbFirst (bytes : List Byte) : bytesOfBits (bytes.flatMap msbFirst) = bytes := by
  induction bytes with
  | nil => rfl
  | cons b bytes ih => rw [List.flatMap_cons, bytesOfBits_msbFirst_append, ih]

theorem length_flatMap_msbFirst (bytes : List Byte) : (bytes.flatMap msbFirst).length = 8 * bytes.length := by
  induction bytes with
  | nil => rfl
  | cons b bytes ih =>
    rw [List.flatMap_cons, List.length_append, ih, List.length_cons, Nat.mul_succ, Nat.add_comm]
    rfl

/-- Settles O3: the length is the one that the code expects, the code selects the command, and the bits carry the
bytes. -/
theorem frameDecodesToItsCommand : Obligations.FrameDecodesToItsCommand := by
  intro i f code params hi hw hf
  have hlen : f.bits = 8 * (code :: f.tag :: params).length :=
    bits_of_frameFits hf (expectedLength_requestBytes hi hw hf)
  have hdec : decodeFrame f.port f.bits (code :: f.tag :: params) = i :=
    decodeFrame_requestBytes hi (by rw [hlen, List.length_cons]; omega)
  refine ⟨hlen, hdec, ?_⟩
  unfold decodeBits
  rw [bytesOfBits_flatMap_msbFirst, length_flatMap_msbFirst, ← hlen, hdec]

end Sys2Proof.RequestFrames
end

section
/-! SUPPORT. The header (R152, R153, R154): its bytes bit by bit, SDO while a frame is open and while none is, and the
statement about them. -/

namespace Sys2Proof.Headers

open Sys2Proof Sys2Proof.Machine Sys2Proof.Claims

/-! ### The bytes of the header (Table 9-1) -/

theorem portMode_code_lt (m : PortMode) : m.code < 4 := by
  cases m <;> decide

/-- STATUS: READY in bit 7, the port state in bits 6 and 5, nATTN's mirror in bit 4, then the flags. -/
theorem statusByte_bits (ready : Bool) (q : Port) :
    (statusByte ready q).getLsbD 7 = ready ∧ ((statusByte ready q).extractLsb' 5 2).toNat = q.mode.code ∧
      (statusByte ready q).getLsbD 4 = q.attention ∧ (statusByte ready q).getLsbD 3 = q.overrun ∧
      (statusByte ready q).getLsbD 2 = q.busyRefused ∧ (statusByte ready q).getLsbD 1 = q.frameFault ∧
      (statusByte ready q).getLsbD 0 = false := by
  unfold statusByte
  generalize q.attention = attention, q.overrun = overrun, q.busyRefused = busy, q.frameFault = fault
  cases q.mode <;> (revert ready attention overrun busy fault; decide)

/-- PRESENCE: the state of Pq in bits 2q + 1 and 2q. -/
theorem presenceByte_bits (s : State) (q : PortId) :
    ((presenceByte s).extractLsb' (2 * q.val) 2).toNat = (s.port q).mode.code := by
  have hcode (p : PortId) : (s.port p).mode.code < 4 := portMode_code_lt _
  have h0 := hcode 0
  have h1 := hcode 1
  have h2 := hcode 2
  have h3 := hcode 3
  unfold presenceByte
  rw [BitVec.extractLsb'_toNat, BitVec.toNat_ofNat, Nat.shiftRight_eq_div_pow]
  fin_cases q <;> dsimp <;> omega

/-- A count that fits into a byte. -/
theorem toNat_ofNat_count {n limit : Nat} (h : n ≤ limit) (hl : limit < 256) : (BitVec.ofNat 8 n).toNat = n :=
  Nat.mod_eq_of_lt (by omega)

/-! ### SDO (R152, R153) -/

theorem sdo_closed {s : State} {p : PortId} (h : (s.port p).frame = none) (i : Nat) : s.sdo p i = none := by
  unfold State.sdo
  rw [h, Option.map_none, ite_self]

theorem sdo_open {s : State} {p : PortId} {o : OpenFrame} (hs : s.supply = true) (h : (s.port p).frame = some o)
    (i : Nat) : s.sdo p i = some (headerBit o.header i) := by
  unfold State.sdo
  rw [if_pos hs, h, Option.map_some]

/-- Byte `j` of the header travels at the places `8 * j` to `8 * j + 7`, most significant bit first. -/
theorem headerBit_byte {header : List Byte} {j i : Nat} {b : Byte} (hi : i < 8) (hb : header[j]? = some b) :
    headerBit header (8 * j + i) = b.getLsbD (7 - i) := by
  have hj : (8 * j + i) / 8 = j := by omega
  have hr : (8 * j + i) % 8 = i := by omega
  unfold headerBit byteAt
  rw [hj, hr, List.getD_eq_getElem?_getD, hb, Option.getD_some]

/-- After the header comes filler. -/
theorem headerBit_filler {header : List Byte} {i : Nat} (hi : 8 * header.length ≤ i) : headerBit header i = false := by
  have hj : header.length ≤ i / 8 := by omega
  unfold headerBit byteAt
  rw [List.getD_eq_default _ _ hj]
  exact BitVec.getLsbD_zero

/-- Settles O5: the codes are those of the tables, SDO is a bit of the open frame's header, and each byte of the header
is one of the facts above. -/
theorem headerShowsPortAndSlot : Obligations.HeaderShowsPortAndSlot := by
  refine ⟨by decide, by decide, fun s p hs => ⟨sdo_closed, fun o ho => ⟨fun j i b hi hb => ?byte, fun i hi => ?filler⟩⟩,
    fun s p hq hd => ?header⟩
  case byte => rw [sdo_open hs ho, headerBit_byte hi hb]
  case filler => rw [sdo_open hs ho, headerBit_filler hi]
  case header =>
    obtain ⟨hready, hmode, hattn, hover, hbusy, hfault, hzero⟩ := statusByte_bits s.ready (s.port p)
    have hlen : (s.header p).length = 6 + (s.port p).slot.data.length := Nat.add_comm _ 6
    exact ⟨hlen, hready, hmode, hattn, hover, hbusy, hfault, hzero, toNat_ofNat_count hq (by decide),
      presenceByte_bits s, rfl, rfl, toNat_ofNat_count hd (by decide), rfl⟩

end Sys2Proof.Headers
end

section
/-! SUPPORT. Frames that take no request (R156, R158, R159, R162 to R164): the verdict of each check that ends in none,
taken to the frame end, and the statement about them. -/

namespace Sys2Proof.FramesRefused

open Sys2Proof Sys2Proof.Machine Sys2Proof.Claims Sys2Proof.RequestEffects Sys2Proof.DueWork Sys2Proof.FrameAnswers

/-! ### The checks of R156 -/

section Checks

variable {s : State} {p : PortId} {bits : Nat}

/-- A frame end with a frame open is the frame over, and what its verdict does. -/
theorem frameEnd_open (ho : s.frameOpen p) (bits : Nat) (tag : Byte) (fits : Bool) (kind : FrameKind)
    (take : State → State) :
    frameEnd p bits tag fits kind take s =
      .next ((s.frameOver p bits).decide p tag ((s.port p).verdict bits fits kind) take) := by
  unfold frameEnd
  rw [if_pos ho.1, endFrame_open ho]

/-- Check 1: the frame started while READY was clear, or was abandoned (R163, R164). -/
theorem frameEnd_notReady {o : OpenFrame} (hp : s.supply = true) (hs : s.settled) (hm : (s.port p).mode ≠ .dozing)
    (hf : (s.port p).frame = some o) (hr : o.ready = false ∨ o.abandoned = true) (bits : Nat) (tag : Byte)
    (fits : Bool) (kind : FrameKind) (take : State → State) :
    frameEnd p bits tag fits kind take s = .next (s.frameOver p bits) := by
  have hopen : s.openFrame p = s := by
    unfold State.openFrame
    rw [hf, wakePort_awake hm]
    rfl
  have hc : (o.abandoned || !o.ready) = true := by
    rcases hr with hr | hr <;> simp [hr]
  have hv : (s.port p).verdict bits fits kind = .notReady := by
    unfold Port.verdict
    rw [hf]
    exact if_pos hc
  unfold frameEnd State.endFrame
  rw [if_pos hp, settle_settled hs, hopen]
  dsimp only
  rw [hv]
  rfl

/-- Check 2: an empty frame (R162). -/
theorem frameEnd_empty (ho : s.frameOpen p) (tag : Byte) (fits : Bool) (kind : FrameKind) (take : State → State) :
    frameEnd p 0 tag fits kind take s = .next (s.frameOver p 0) := by
  rw [frameEnd_open ho, verdict_open ho, if_pos rfl]
  rfl

/-- Check 3: a length fault sets FRAME_FAULT (R158). -/
theorem frameEnd_lengthFault (ho : s.frameOpen p) (hb : bits ≠ 0) (tag : Byte) (kind : FrameKind)
    (take : State → State) :
    frameEnd p bits tag false kind take s =
      .next ((s.frameOver p bits).modPort p (fun q => { q with frameFault := true })) := by
  rw [frameEnd_open ho, verdict_open ho, if_neg hb, if_pos (by decide)]
  rfl

/-- Check 4: a NOP frame of whole bytes (R162). -/
theorem frameEnd_nop (ho : s.frameOpen p) (hb : bits ≠ 0) (tag : Byte) (take : State → State) :
    frameEnd p bits tag true .nop take s = .next (s.frameOver p bits) := by
  rw [frameEnd_open ho, verdict_open ho, if_neg hb, if_neg (by decide), if_pos rfl]
  rfl

/-- Check 5: any other frame while a request is in flight sets BUSY_REFUSED (R159). -/
theorem frameEnd_busy (ho : s.frameOpen p) (hi : (s.port p).inFlight.isSome = true) (hb : bits ≠ 0) (tag : Byte)
    {kind : FrameKind} (hn : kind ≠ .nop) (take : State → State) :
    frameEnd p bits tag true kind take s =
      .next ((s.frameOver p bits).modPort p (fun q => { q with busyRefused := true })) := by
  rw [frameEnd_open ho, verdict_open ho, if_neg hb, if_neg (by decide), if_neg hn, if_pos hi]
  rfl

end Checks

/-! ### The frame ends -/

/-- A request frame whose length does not match its code; a WRITE does not match whatever data it carries. -/
theorem exec_unfitting {i : Instr} {f : Frame} {code : Byte} {params : List Byte}
    (hi : requestBytes i = some (f, code, params))
    (hf : frameFits code (byteAt (code :: f.tag :: params) 6) f.bits = false) :
    ∃ kind take, ∀ s, exec i s = frameEnd f.port f.bits f.tag false kind take s := by
  have hframe {fits : Bool} (hfits : fits = false)
      (he : ∃ kind take, ∀ s, exec i s = frameEnd f.port f.bits f.tag fits kind take s) :
      ∃ kind take, ∀ s, exec i s = frameEnd f.port f.bits f.tag false kind take s := hfits ▸ he
  cases i <;> cases hi
  case write t size data =>
    have hs : frameFits 0x11 size f.bits = false := hf
    exact hframe (by rw [hs, Bool.false_and]) ⟨_, _, fun _ => rfl⟩
  all_goals exact hframe ((frameFits_size (by decide) _ _ _).trans hf) ⟨_, _, fun _ => rfl⟩

theorem exec_nop (p : PortId) (bits : Nat) (s : State) :
    exec (.nop p bits) s = frameEnd p bits 0 (frameFits 0x00 0 bits) .nop id s := rfl

theorem exec_unknownCode (f : Frame) (code : Byte) (s : State) :
    exec (.unknownCode f code) s =
      frameEnd f.port f.bits f.tag (f.bits % 8 == 0 && 16 ≤ f.bits) .unknown id s := rfl

/-- A NOP frame matches its code at any number of whole bytes (R157). -/
theorem frameFits_nop (bits : Nat) : frameFits 0x00 0 bits = (bits % 8 == 0 && decide (8 ≤ bits)) := rfl

/-- Settles O8: each frame is decided by the first check of R156 that applies to it. -/
theorem framesNotTaken : Obligations.FramesNotTaken := by
  refine ⟨⟨fun p s ho => frameEnd_empty ho _ _ _ _, fun p bits s ho hlong hbytes => ?nop⟩,
    ⟨fun i f code params s hr ho hb hf => ?unfitting, fun f code s ho hb hlen => ?unknownUnfitting,
      fun p bits s ho hbytes => ?nopUnfitting⟩,
    ⟨fun i f code params s hr hw ho hi hf => ?busy, fun f code s ho hi hbytes hlong => ?unknownBusy⟩,
    fun p o s hp hs hm hf hr => ?notReady⟩
  case nop =>
    have hfits : frameFits 0x00 0 bits = true := by
      rw [frameFits_nop, hbytes, decide_eq_true hlong]
      rfl
    rw [exec_nop, hfits]
    exact frameEnd_nop ho (by omega) _ _
  case unfitting =>
    obtain ⟨kind, take, he⟩ := exec_unfitting hr hf
    rw [he]
    exact frameEnd_lengthFault ho hb _ _ _
  case unknownUnfitting =>
    have hfits : (f.bits % 8 == 0 && decide (16 ≤ f.bits)) = false := by
      rcases hlen with hlen | hlen <;> simp [hlen]
    rw [exec_unknownCode, hfits]
    exact frameEnd_lengthFault ho hb _ _ _
  case nopUnfitting =>
    have hfits : frameFits 0x00 0 bits = false := by
      rw [frameFits_nop, beq_false_of_ne hbytes, Bool.false_and]
    rw [exec_nop, hfits]
    exact frameEnd_lengthFault ho (by omega) _ _ _
  case busy =>
    obtain ⟨kind, take, hn, -, -, he⟩ := endsFitting hr hw hf
    rw [he]
    exact frameEnd_busy ho hi (frameFits_pos hf) _ hn _
  case unknownBusy =>
    have hfits : (f.bits % 8 == 0 && decide (16 ≤ f.bits)) = true := by simp [hbytes, hlong]
    rw [exec_unknownCode, hfits]
    exact frameEnd_busy ho hi (by omega) _ (by decide) _
  case notReady =>
    have hend := frameEnd_notReady hp hs hm hf hr
    refine ⟨fun i f code params hi hport => ?_, fun f code hport => ?_, fun bits => hend _ _ _ _ _, hend _ _ _ _ _⟩
    · obtain ⟨fits, kind, take, he⟩ := exec_of_requestBytes hi
      subst hport
      rw [he]
      exact hend _ _ _ _ _
    · subst hport
      exact hend _ _ _ _ _

end Sys2Proof.FramesRefused
end

section
/-! SUPPORT. One step (log entry 1): what the queue of commands makes of it, and the statement about it. -/

namespace Sys2Proof.Steps

open Sys2Proof Sys2Proof.Machine Sys2Proof.Claims

theorem step_idle {s : State} (h : s.pending = []) : step s = .next s := by
  unfold step
  rw [h]

theorem step_front {s : State} {c : Instr} {rest : List Instr} (h : s.pending = c :: rest) :
    step s = exec c { s with pending := rest } := by
  unfold step
  rw [h]

/-- Settles O1: the two cases of the queue. -/
theorem stepRunsFrontCommand : Obligations.StepRunsFrontCommand :=
  ⟨fun _ _ _ => step_front rfl, fun _ => step_idle⟩

end Sys2Proof.Steps
end

section
/-! SUPPORT. A frame end with no frame open (log entry 2): what a frame start leaves due and open, and the statement
about the frame that its end stands for. -/

namespace Sys2Proof.WholeFrames

open Sys2Proof Sys2Proof.Machine Sys2Proof.Claims Sys2Proof.PortChanges Sys2Proof.DueWork Sys2Proof.FrameAnswers

variable {s : State} {p : PortId}

/-! ### After a frame start (R147, R153) -/

/-- A wake changes ports alone, and of its port no frame. -/
theorem wakePort_spec (s : State) (p : PortId) :
    { s.wakePort p with ports := s.ports } = s ∧ ((s.wakePort p).port p).frame = (s.port p).frame := by
  by_cases h : (s.port p).mode = .dozing
  · rw [wakePort_dozing h, State.setMode, port_modPort_same]
    exact ⟨rfl, rfl⟩
  · rw [wakePort_awake h]
    exact ⟨rfl, rfl⟩

/-- A frame start changes ports alone. -/
theorem startFrame_aside (s : State) (p : PortId) : { s.startFrame p with ports := s.ports } = s :=
  congrArg (fun t : State => { t with ports := s.ports }) (wakePort_spec _ p).1

theorem startFrame_supply (s : State) (p : PortId) : (s.startFrame p).supply = s.supply := by
  have h := congrArg State.supply (startFrame_aside s p)
  exact h

/-- A frame start makes nothing due. -/
theorem startFrame_settled (h : s.settled) (p : PortId) : (s.startFrame p).settled := by
  rw [← startFrame_aside s p] at h
  exact h

theorem startFrame_frame (s : State) (p : PortId) :
    ((s.startFrame p).port p).frame = some ⟨s.header p, s.ready, false⟩ := by
  unfold State.startFrame
  rw [(wakePort_spec _ p).2, port_modPort_same]

/-- The frame that a start has opened is in progress, with its port awake. -/
theorem openFrame_startFrame (s : State) (p : PortId) : (s.startFrame p).openFrame p = s.startFrame p := by
  have hawake : ((s.startFrame p).port p).mode ≠ .dozing := wakePort_mode _ p
  unfold State.openFrame
  rw [startFrame_frame, wakePort_awake hawake]
  rfl

theorem openFrame_closed (h : (s.port p).frame = none) : s.openFrame p = s.startFrame p := by
  unfold State.openFrame
  rw [h]
  rfl

/-! ### The frame end -/

/-- A frame end opens its frame where none is open, and then finds what it finds after a frame start. -/
theorem frameEnd_startFrame (hp : s.supply = true) (hs : s.settled) (hf : (s.port p).frame = none) (bits : Nat)
    (tag : Byte) (fits : Bool) (kind : FrameKind) (take : State → State) :
    frameEnd p bits tag fits kind take s = frameEnd p bits tag fits kind take (s.startFrame p) := by
  have hp' : (s.startFrame p).supply = true := (startFrame_supply s p).trans hp
  unfold frameEnd State.endFrame
  rw [if_pos hp, if_pos hp', settle_settled hs, settle_settled (startFrame_settled hs p), openFrame_closed hf,
    openFrame_startFrame]

/-- Settles O10: every frame-end command is a frame end, and a frame end cannot tell the frame it opens from one that is
open. -/
theorem frameEndAloneIsWholeFrame : Obligations.FrameEndAloneIsWholeFrame := by
  intro p s hp hs hf
  have hend := frameEnd_startFrame hp hs hf
  refine ⟨s.startFrame p, execFrameStart_settled hp hs p, fun i f code params hi hport => ?request,
    fun f code hport => ?unknown, fun bits => hend _ _ _ _ _, hend _ _ _ _ _⟩
  case request =>
    obtain ⟨fits, kind, take, he⟩ := exec_of_requestBytes hi
    subst hport
    rw [he, he]
    exact hend _ _ _ _ _
  case unknown =>
    subst hport
    exact hend _ _ _ _ _

end Sys2Proof.WholeFrames
end

section
/-! SUPPORT. A grant in two commands (log entries 3 and 4): its beginning and its access completion are the grant, a
grant that the arbiter would not make is nothing, and the statement about both. -/

namespace Sys2Proof.GrantSpans

open Sys2Proof Sys2Proof.Machine Sys2Proof.Claims Sys2Proof.DueWork Sys2Proof.RunEnds

variable {s t : State}

/-! ### A grant that the arbiter would not make (R6) -/

theorem grantMemory_none (hs : s.settled) (hc : s.memoryChoice = none) (after : State → State) :
    grantMemory after s = .next s := by
  unfold grantMemory
  rw [hc]
  exact congrArg Host.Outcome.next (postLate_none hs.2.1)

theorem grantSegment_none (hs : s.settled) (hc : s.segmentChoice = none) (after : State → State) :
    grantSegment after s = .next s := by
  unfold grantSegment
  rw [hc]
  exact congrArg Host.Outcome.next (postLate_none hs.2.1)

/-! ### The two commands of a grant -/

/-- A grant that has begun has left no notice, so that what follows its beginning follows at once; and nothing is due
while it holds the array. -/
theorem andThen_postLate_begun {g : State → Host.Outcome State Fault Refusal} (hg : Unaware g) (hs : s.settled)
    (hb : g s = .next t) {x : Grant} (hx : t.grant = some x) (after : State → State) :
    andThen (g s) (fun v => after v.postLate) = .next (after t) ∧ t.settled := by
  obtain ⟨hlapses, hlate, -⟩ := hs
  obtain ⟨hn, hl⟩ := hg.kept hb
  refine ⟨?_, settled_of_granted (hl.trans hlapses) (hn.trans hlate) hx⟩
  rw [hb]
  exact congrArg (fun v => Host.Outcome.next (after v)) (postLate_none (hn.trans hlate))

theorem memoryGrant_begins_ends (hs : s.settled) (hg : s.grant = none) (hb : execMemoryGrant .begins s = .next t) :
    execMemoryGrant .ends t = execMemoryGrant .whole s := by
  simp only [execMemoryGrant, clearWay_of_settled hs] at hb ⊢
  cases hc : s.memoryChoice with
  | none =>
    rw [grantMemory_none hs hc] at hb ⊢
    cases hb
    rw [settle_settled hs, State.endMemory, hg]
  | some choice =>
    obtain ⟨p, r⟩ := choice
    rw [grantMemory_chosen hc] at hb ⊢
    have hbegun := begins_next hs (unaware_beginPort p r) hb
    obtain ⟨code, data, hx⟩ := beginPort_grant hbegun
    obtain ⟨hwhole, ht⟩ :=
      andThen_postLate_begun (unaware_beginPort p r) hs hbegun hx (State.completeAccess .atOnce)
    rw [hwhole]
    exact execMemoryGrant_ends_granted ht hx

theorem segmentGrant_begins_ends (hs : s.settled) (hg : s.grant = none) (post : RunEndPost)
    (hb : execSegmentGrant .begins s = .next t) :
    execSegmentGrant (.ends post) t = execSegmentGrant (.whole post) s := by
  simp only [execSegmentGrant, clearWay_of_settled hs] at hb ⊢
  cases hc : s.segmentChoice with
  | none =>
    rw [grantSegment_none hs hc] at hb ⊢
    cases hb
    rw [settle_settled hs, State.endSegment, hg]
  | some k =>
    rw [grantSegment_chosen hc] at hb ⊢
    have hbegun := begins_next hs (unaware_beginEngine k) hb
    obtain ⟨moved, hx⟩ := beginEngine_grant hbegun
    obtain ⟨hwhole, ht⟩ :=
      andThen_postLate_begun (unaware_beginEngine k) hs hbegun hx (State.completeAccess post)
    rw [hwhole]
    exact execSegmentGrant_ends_granted ht hx post

/-- Settles O41: where nothing is due, a grant's beginning is the grant up to its completion, and a grant without a
choice changes nothing. -/
theorem grantInTwoCommands : Obligations.GrantInTwoCommands := by
  refine fun s hs hg => ⟨fun t => memoryGrant_begins_ends hs hg, fun t post => segmentGrant_begins_ends hs hg post,
    fun hc => ?memory, fun hc post => ?segment⟩
  case memory => exact (congrArg (grantMemory _) (clearWay_of_settled hs)).trans (grantMemory_none hs hc _)
  case segment => exact (congrArg (grantSegment _) (clearWay_of_settled hs)).trans (grantSegment_none hs hc _)

end Sys2Proof.GrantSpans
end

section
/-! SUPPORT. The stages of a command: what is due before it, then its own event, one step of the model after another. One
list of stages serves every statement about all commands. -/

namespace Sys2Proof.CommandStages

open Sys2Proof Sys2Proof.Machine Sys2Proof.Claims Sys2Proof.RequestEffects

/-! ### The stages -/

/-- The frame in progress on the port reaches the checks of R156 after the first: it started while READY was set, and no
nRESET assertion abandoned it (R163, R164). -/
def Live (q : Port) : Prop := ∃ o ∈ q.frame, o.ready = true ∧ o.abandoned = false

/-- One stage of a command that is no grant and no event of the board. -/
inductive Stage (s : State) : State → Prop where
  | finishLapses : Stage s s.finishLapses
  | nextLapse : Stage s s.nextLapse
  | postLate : Stage s s.postLate
  | appliesWaiting (hg : s.grant = none) : Stage s s.applyAllDeferred
  | completes (post : RunEndPost) : Stage s (s.completeAccess post)
  | appliesUpTo {p : PortId} {r : Request} (hp : (s.port p).inFlight = some (.deferred r)) :
      Stage s ((s.completeAccess .atOnce).applyDeferredUpTo p)
  | appliesFirst {p : PortId} {k : ChannelId} (hp : (s.port p).inFlight = some (.afterSegment k)) :
      Stage s ((s.completeAccess .atOnce).applyDeferredFirst p)
  | counts (ht : s.ticking = true) : Stage s s.countTick
  | tickWaits (ht : s.ticking = true) : Stage s (s.enqueue .tick)
  | frameStarts (p : PortId) : Stage s (s.modPort p (fun q => { q with frame := some ⟨s.header p, s.ready, false⟩ }))
  | wakes {p : PortId} (hm : (s.port p).mode = .dozing) : Stage s (s.setMode p .attached)
  | dark (p : PortId) {f : Option OpenFrame} (hf : ∀ o ∈ f, o.abandoned = true) : Stage s (s.darkFrame p f)
  | frameEnds (p : PortId) (bits : Nat) : Stage s (s.closeFrame p bits)
  | lengthFault {p : PortId} (hl : Live (s.port p)) (bits : Nat) :
      Stage s ((s.closeFrame p bits).modPort p (fun q => { q with frameFault := true }))
  | busy {p : PortId} (hl : Live (s.port p)) (bits : Nat) :
      Stage s ((s.closeFrame p bits).modPort p (fun q => { q with busyRefused := true }))
  | answers {p : PortId} (hl : Live (s.port p)) (hi : (s.port p).inFlight = none) (bits : Nat) (tag : Byte)
      (code : ResultCode) : Stage s ((s.closeFrame p bits).answerNow p tag code)
  | takesRequest {p : PortId} (hl : Live (s.port p)) (hi : (s.port p).inFlight = none) (bits : Nat) (tag : Byte)
      (r : Request) : Stage s ((s.closeFrame p bits).takeRequest p tag r)
  | takesMemory {p : PortId} (hl : Live (s.port p)) (hi : (s.port p).inFlight = none) (bits : Nat) (tag : Byte)
      (target : TargetBytes) (op : Option MemoryOp) :
      Stage s ((s.closeFrame p bits).takeMemory p tag (checkAtTaking target op))

/-- The beginning of a grant, with a run-end notice still to be posted (R111). -/
inductive Begins (s : State) : State → Prop where
  | access {p : PortId} {r : MemoryRequest} {u : State} (hc : s.memoryChoice = some (p, r))
      (hb : beginAccess p r (s.advancePointer ⟨p.val, by omega⟩) = .next u) : Begins s u.postLate
  | segment {k : ChannelId} {u : State} (hc : s.segmentChoice = some k)
      (hb : beginSegment k (s.advancePointer 4) = .next u) : Begins s u.postLate

/-- An event of the board that has an effect (R2, R3, R4). -/
inductive Power (s : State) : State → Prop where
  | rises : Power s s.powerOn
  | falls : Power s { s.powerOn with supply := false, filling := false }
  | fills (hs : s.supply = true) :
      Power s { s with fill := .filled, filling := false, array := [], ticking := !s.nReset }
  | asserts : Power s { s.deviceReset with nReset := true }
  | assertsDark (hs : s.supply = false) : Power s { s with nReset := true }
  | releasesDark (hs : s.supply = false) : Power s { s with nReset := false }
  | releasesFilled (hs : s.supply = true) (hf : s.fill = .filled) : Power s { s with nReset := false, ticking := true }
  | releasesUnfilled (hf : s.fill ≠ .filled) : Power s { s with nReset := false, filling := true }

/-- One stage of any command. -/
inductive Act (s t : State) : Prop where
  | stage (h : Stage s t)
  | begins (h : Begins s t)
  | power (h : Power s t)

abbrev Stages : State → State → Prop := Relation.ReflTransGen Stage

abbrev Acts : State → State → Prop := Relation.ReflTransGen Act

theorem Stages.acts {s t : State} (h : Stages s t) : Acts s t := Relation.ReflTransGen.mono (fun _ _ hs => Act.stage hs) _ _ h

/-- What every stage keeps, all of them keep. -/
theorem Acts.keeps {s t : State} (h : Acts s t) {I : State → Prop} (hI : ∀ u v, Act u v → I u → I v) (hs : I s) : I t := by
  induction h with
  | refl => exact hs
  | tail _ huv ih => exact hI _ _ huv ih

theorem Stages.keeps {s t : State} (h : Stages s t) {I : State → Prop} (hI : ∀ u v, Stage u v → I u → I v) (hs : I s) :
    I t := by
  induction h with
  | refl => exact hs
  | tail _ huv ih => exact hI _ _ huv ih

/-! ### What is due before a command -/

section Due

variable {s t : State}

theorem stages_afterCompletion (h : Stages s t) : Stages s t.afterCompletion := by
  cases hg : t.grant with
  | some g => rwa [afterCompletion_granted hg]
  | none =>
    rw [afterCompletion_free hg]
    exact h.tail (.appliesWaiting hg)

theorem stages_clearWay (s : State) : Stages s s.clearWay := stages_afterCompletion (.single .finishLapses)

theorem stages_settle (s : State) : Stages s s.settle :=
  stages_afterCompletion ((Relation.ReflTransGen.single .finishLapses).tail .postLate)

end Due

/-! ### Frames -/

section Frames

variable {s t u : State} {p : PortId}

theorem stages_wakePort (h : Stages s t) (p : PortId) : Stages s (t.wakePort p) := by
  unfold State.wakePort
  split
  · next hm => exact h.tail (.wakes hm)
  · exact h

theorem stages_startFrame (h : Stages s t) (p : PortId) : Stages s (t.startFrame p) :=
  stages_wakePort (h.tail (.frameStarts p)) p

theorem stages_openFrame (h : Stages s t) (p : PortId) : Stages s (t.openFrame p) := by
  unfold State.openFrame
  split
  · exact stages_wakePort h p
  · exact stages_startFrame h p

/-- Only a live frame comes to a check of R156 after the first. -/
theorem live_of_verdict {q : Port} {bits : Nat} {fits : Bool} {kind : FrameKind}
    (h : q.verdict bits fits kind ≠ .notReady) : Live q := by
  unfold Port.verdict at h
  split at h
  · exact absurd rfl h
  · next o ho =>
    split at h
    · exact absurd rfl h
    · next hn =>
      simp only [Bool.or_eq_true, Bool.not_eq_true', not_or, Bool.not_eq_true, Bool.not_eq_false] at hn
      exact ⟨o, ho, hn.2, hn.1⟩

/-- The verdicts that answer or take a request: the port has none in flight (R156, check 5). -/
theorem idle_of_verdict {q : Port} {bits : Nat} {fits : Bool} {kind : FrameKind}
    (h : q.verdict bits fits kind = .unknownCode ∨ q.verdict bits fits kind = .notAttached ∨
      q.verdict bits fits kind = .taken) : q.inFlight = none := by
  by_contra hi
  have hi : q.inFlight.isSome = true := Option.isSome_iff_ne_none.mpr hi
  unfold Port.verdict at h
  simp only [hi, if_true] at h
  split at h
  · simp at h
  · split_ifs at h <;> simp at h

/-- A frame end with what takes its request. -/
inductive Takes (p : PortId) (tag : Byte) : (State → State) → Prop where
  | request (r : Request) : Takes p tag (fun t => t.takeRequest p tag r)
  | memory (target : TargetBytes) (op : Option MemoryOp) :
      Takes p tag (fun t => t.takeMemory p tag (checkAtTaking target op))
  | none : Takes p tag id

theorem stage_decide {tag : Byte} {take : State → State} (ht : Takes p tag take) (s : State) (bits : Nat) (fits : Bool)
    (kind : FrameKind) :
    Stage s ((s.closeFrame p bits).decide p tag ((s.port p).verdict bits fits kind) take) := by
  have hlive : (s.port p).verdict bits fits kind ≠ .notReady → Live (s.port p) := live_of_verdict
  have hidle := idle_of_verdict (q := s.port p) (bits := bits) (fits := fits) (kind := kind)
  generalize (s.port p).verdict bits fits kind = v at hlive hidle
  cases v with
  | notReady => exact .frameEnds p bits
  | empty => exact .frameEnds p bits
  | lengthFault => exact .lengthFault (hlive Verdict.noConfusion) bits
  | nop => exact .frameEnds p bits
  | busy => exact .busy (hlive Verdict.noConfusion) bits
  | unknownCode => exact .answers (hlive Verdict.noConfusion) (hidle (.inl rfl)) bits tag _
  | notAttached => exact .answers (hlive Verdict.noConfusion) (hidle (.inr (.inl rfl))) bits tag _
  | taken =>
    have hl := hlive Verdict.noConfusion
    have hi := hidle (.inr (.inr rfl))
    cases ht with
    | request r => exact .takesRequest hl hi bits tag r
    | memory target op => exact .takesMemory hl hi bits tag target op
    | none => exact .frameEnds p bits

theorem stages_frameEnd {tag : Byte} {take : State → State} (ht : Takes p tag take) {bits : Nat} {fits : Bool}
    {kind : FrameKind} (he : frameEnd p bits tag fits kind take s = .next t) : Stages s t := by
  unfold frameEnd at he
  cases he
  split
  · exact (stages_openFrame (stages_settle s) p).tail (stage_decide ht _ bits fits kind)
  · exact .single (.dark p (by simp))

theorem stages_frameStart (he : execFrameStart p s = .next t) : Stages s t := by
  unfold execFrameStart at he
  cases he
  split
  · exact stages_startFrame (stages_settle s) p
  · exact .single (.dark p (by simp [OpenFrame.dark]))

end Frames

/-! ### Ticks, lapses and deferred requests -/

section Commands

variable {s t : State}

theorem stages_tick (he : execTick s = .next t) : Stages s t := by
  unfold execTick at he
  cases he
  have hs := stages_settle s
  cases ht : s.ticking with
  | false => exact hs
  | true =>
    have ht : s.settle.ticking = true := (DueWork.settle_spec s).2.2.trans ht
    rw [Bool.not_true, if_neg Bool.false_ne_true]
    split
    · exact hs.tail (.tickWaits ht)
    · exact hs.tail (.counts ht)

theorem stages_lapse (he : execLapse s = .next t) : Stages s t := by
  unfold execLapse at he
  cases he
  split
  · exact stages_settle s
  · exact .single .nextLapse

theorem finishLapses_inFlight (s : State) (p : PortId) : (s.finishLapses.port p).inFlight = (s.port p).inFlight :=
  (Posting.posted_refl s).finishLapses.inFlight p

theorem stages_deferredRequestApply {p : PortId} (he : execDeferredRequestApply p s = .next t) : Stages s t := by
  unfold execDeferredRequestApply at he
  split at he
  · next hp =>
    cases he
    exact (Relation.ReflTransGen.single .finishLapses).tail (.appliesUpTo ((finishLapses_inFlight s p).trans hp))
  · cases he
    exact stages_settle s

theorem stages_abortAfterSegment {p : PortId} (he : execAbortAfterSegment p s = .next t) : Stages s t := by
  unfold execAbortAfterSegment at he
  split at he
  · next hp =>
    cases he
    exact (Relation.ReflTransGen.single .finishLapses).tail (.appliesFirst ((finishLapses_inFlight s p).trans hp))
  · cases he
    exact stages_settle s

/-- The commands that are no grant and no event of the board. -/
def quiet : Instr → Bool
  | .powerOnReset => false
  | .fillEnd => false
  | .nresetAssertion => false
  | .nresetRelease => false
  | .supplyLoss => false
  | .memoryGrant _ => false
  | .segmentGrant _ => false
  | _ => true

theorem exec_stages {i : Instr} (hq : quiet i = true) (he : exec i s = .next t) : Stages s t := by
  cases hr : requestOf i with
  | some x =>
    obtain ⟨f, code, r⟩ := x
    exact stages_frameEnd (.request r) ((exec_of_requestOf hr s).symm.trans he)
  | none =>
    cases i
    case frameStart p => exact stages_frameStart he
    case emptyFrame p => exact stages_frameEnd .none he
    case nop p bits => exact stages_frameEnd .none he
    case unknownCode f code => exact stages_frameEnd .none he
    case read f target size => exact stages_frameEnd (.memory target _) he
    case write f target size data => exact stages_frameEnd (.memory target _) he
    case exchange f target width expected new => exact stages_frameEnd (.memory target _) he
    case fetchAdd f target width addend => exact stages_frameEnd (.memory target _) he
    case abortAfterSegment p => exact stages_abortAfterSegment he
    case deferredRequestApply p => exact stages_deferredRequestApply he
    case tick => exact stages_tick he
    case lapse => exact stages_lapse he
    case powerOnReset | fillEnd | nresetAssertion | nresetRelease | supplyLoss | memoryGrant | segmentGrant => cases hq
    all_goals cases hr

/-! ### Grants -/

theorem andThen_next {x : Host.Outcome State Fault Refusal} {g : State → State} (he : andThen x g = .next t) :
    ∃ u, x = .next u ∧ t = g u := by
  cases x with
  | next u =>
    cases he
    exact ⟨u, rfl, rfl⟩
  | fault r => cases he
  | refused r => cases he

theorem acts_grantMemory {after : State → State} (ha : ∀ u, Stages u (after u)) (he : grantMemory after s = .next t) :
    Acts s t := by
  unfold grantMemory at he
  split at he
  · cases he
    exact .single (.stage .postLate)
  · next hc =>
    obtain ⟨u, hu, rfl⟩ := andThen_next he
    exact (Relation.ReflTransGen.single (.begins (.access hc hu))).trans (ha _).acts

theorem acts_grantSegment {after : State → State} (ha : ∀ u, Stages u (after u)) (he : grantSegment after s = .next t) :
    Acts s t := by
  unfold grantSegment at he
  split at he
  · cases he
    exact .single (.stage .postLate)
  · next hc =>
    obtain ⟨u, hu, rfl⟩ := andThen_next he
    exact (Relation.ReflTransGen.single (.begins (.segment hc hu))).trans (ha _).acts

theorem acts_memoryGrant {span : GrantSpan} (he : execMemoryGrant span s = .next t) : Acts s t := by
  have hw := (stages_clearWay s).acts
  cases span with
  | whole => exact hw.trans (acts_grantMemory (fun _ => .single (.completes _)) he)
  | begins => exact hw.trans (acts_grantMemory (fun _ => .refl) he)
  | ends =>
    cases he
    refine Stages.acts ?_
    unfold State.endMemory
    split
    · exact (stages_settle s).tail (.completes _)
    · exact stages_settle s

theorem acts_segmentGrant {span : SegmentSpan} (he : execSegmentGrant span s = .next t) : Acts s t := by
  have hw := (stages_clearWay s).acts
  cases span with
  | whole post => exact hw.trans (acts_grantSegment (fun _ => .single (.completes _)) he)
  | begins => exact hw.trans (acts_grantSegment (fun _ => .refl) he)
  | ends post =>
    cases he
    refine Stages.acts ?_
    unfold State.endSegment
    split
    · exact (stages_settle s).tail (.completes _)
    · exact stages_settle s

/-! ### Power and device reset -/

theorem power_fillEnd (he : execFillEnd s = .next t) : t = s ∨ Power s t := by
  unfold execFillEnd at he
  cases he
  split
  · next h => exact .inr (.fills (Bool.and_eq_true_iff.mp h).1)
  · exact .inl rfl

theorem power_nresetAssertion (he : execNresetAssertion s = .next t) : t = s ∨ Power s t := by
  unfold execNresetAssertion at he
  cases he
  split
  · exact .inl rfl
  · split
    · exact .inr .asserts
    · next hs => exact .inr (.assertsDark (Bool.eq_false_iff.mpr hs))

theorem power_nresetRelease (he : execNresetRelease s = .next t) : t = s ∨ Power s t := by
  unfold execNresetRelease at he
  cases he
  split
  · exact .inl rfl
  · split
    · next hs => exact .inr (.releasesDark (Bool.not_eq_true' s.supply ▸ hs))
    · next hs =>
      split
      · next hf => exact .inr (.releasesFilled (by simpa using hs) hf)
      · next hf => exact .inr (.releasesUnfilled hf)

/-! ### Every command -/

theorem acts_of_power (h : t = s ∨ Power s t) : Acts s t := by
  obtain rfl | h := h
  · exact .refl
  · exact .single (.power h)

theorem exec_acts {i : Instr} (he : exec i s = .next t) : Acts s t := by
  cases hq : quiet i with
  | true => exact (exec_stages hq he).acts
  | false =>
    cases i
    case powerOnReset =>
      cases he
      exact .single (.power .rises)
    case fillEnd => exact acts_of_power (power_fillEnd he)
    case nresetAssertion => exact acts_of_power (power_nresetAssertion he)
    case nresetRelease => exact acts_of_power (power_nresetRelease he)
    case supplyLoss =>
      cases he
      exact .single (.power .falls)
    case memoryGrant span => exact acts_memoryGrant he
    case segmentGrant span => exact acts_segmentGrant he
    all_goals cases hq

/-- What every stage keeps, and what does not look at the queue of commands, every step keeps. -/
theorem step_keeps {I : State → Prop} (hI : ∀ u v, Act u v → I u → I v)
    (hp : ∀ (u : State) (is : List Instr), I u → I { u with pending := is }) (hs : I s) (he : step s = .next t) :
    I t := by
  unfold step at he
  split at he
  · cases he
    exact hs
  · next c rest _ => exact (exec_acts he).keeps hI (hp s rest hs)

end Commands

end Sys2Proof.CommandStages
end

section
/-! SUPPORT. What no stage changes: the supply, READY, the time base, the queue of commands, and, but for a grant and the
board's events, the array; and the statement about every command's frame (O2). -/

namespace Sys2Proof.StandingFields

open Sys2Proof Sys2Proof.Machine Sys2Proof.Claims Sys2Proof.RequestEffects Sys2Proof.CommandStages

/-! ### The fields -/

/-- What only the board's events change, and the queue of commands. -/
structure Board where
  supply : Bool
  nReset : Bool
  fill : FillState
  filling : Bool
  ticking : Bool
  pending : List Instr

/-- The board's part of a state. -/
def board (s : State) : Board := ⟨s.supply, s.nReset, s.fill, s.filling, s.ticking, s.pending⟩

/-- Neither the board's part nor the array is changed. -/
def Stands (s t : State) : Prop := board t = board s ∧ t.array = s.array

section Operations

variable {r s t : State}

theorem stands_refl (s : State) : Stands s s := ⟨rfl, rfl⟩

theorem Stands.trans (h : Stands r s) (g : Stands s t) : Stands r t := ⟨g.1.trans h.1, g.2.trans h.2⟩

theorem Stands.ready (h : board t = board s) : t.ready = s.ready :=
  congrArg (fun b : Board => b.supply && b.fill == .filled && !b.nReset) h

/-- A list of operations none of which changes them. -/
theorem stands_foldl {α : Type} {g : State → α → State} (hg : ∀ u a, Stands u (g u a)) (l : List α) (s : State) :
    Stands s (l.foldl g s) :=
  List.foldlRecOn (motive := Stands s) l _ (stands_refl s) (fun u hu a _ => hu.trans (hg u a))

/-- States that differ in watches, channels and ports alone. -/
theorem board_sameOutside (h : s.sameOutside t) : board t = board s := by
  have hb := congrArg board h
  exact hb.symm

/-- States that differ in watches and ports alone. -/
theorem board_aside (h : { t with watches := s.watches, ports := s.ports } = s) : board t = board s := by
  have hb := congrArg board h
  exact hb

/-- States that differ in ports and the notice kept alone. -/
theorem board_reported (h : { t with ports := s.ports, lateNotice := s.lateNotice } = r) : board t = board r := by
  have hb := congrArg board h
  exact hb

theorem board_ports (h : { t with ports := s.ports } = s) : board t = board s := by
  have hb := congrArg board h
  exact hb

/-! ### Each operation -/

theorem stands_postLate (s : State) : Stands s s.postLate := by
  unfold State.postLate
  split <;> exact ⟨rfl, rfl⟩

theorem stands_lapseOf (s : State) (w : WatchId) : Stands s (s.lapseOf w) := by
  have h := triggerOnce_sameOutside
    ((s.setWatch w ({ s.watch w with quiet := .lapsed, countdown := 0 } : Watch).hit).postTo (s.watch w).subscribers
      (quietNotice w (s.watch w).config.priority)) s.tickTriggered (s.watch w).config.trigger
  have hb := board_sameOutside h
  exact ⟨hb, h.array.symm⟩

theorem stands_finishLapses (s : State) : Stands s s.finishLapses := stands_foldl stands_lapseOf s.lapsesDue s

theorem stands_nextLapse (s : State) : Stands s s.nextLapse := by
  unfold State.nextLapse
  split
  · exact stands_refl s
  · exact stands_lapseOf s _

theorem stands_segmentCompletes (s : State) (k : ChannelId) (moved : Option Nat) (post : RunEndPost) :
    Stands s (s.segmentCompletes k moved post) := by
  obtain ⟨e, -, h⟩ := ChannelChanges.segmentCompletes_spec s k post moved
  have hb := board_reported h
  exact ⟨hb, ChannelChanges.segmentCompletes_array s k post moved⟩

theorem stands_completeAccess (s : State) (post : RunEndPost) : Stands s (s.completeAccess post) := by
  unfold State.completeAccess
  split
  · exact stands_refl s
  · exact ⟨rfl, rfl⟩
  · exact stands_segmentCompletes { s with grant := none } _ _ post

theorem stands_abort (s : State) (k : ChannelId) : Stands s (s.abort k) := by
  unfold State.abort
  dsimp only
  split <;> exact ⟨rfl, rfl⟩

theorem stands_effect {p : PortId} (he : Effect p s t) : Stands s t := by
  cases he with
  | none => exact stands_refl s
  | port g hg => exact ⟨rfl, rfl⟩
  | own x => cases x <;> exact ⟨rfl, rfl⟩
  | anchor a e g ho hg => exact ⟨rfl, rfl⟩
  | watch w e ho hs => exact ⟨rfl, rfl⟩
  | channel k e ho => exact ⟨rfl, rfl⟩
  | abort k => exact stands_abort s k
  | attach hm => exact ⟨rfl, rfl⟩
  | reset m kind => exact ⟨rfl, rfl⟩

theorem stands_applyAndComplete (s : State) (p : PortId) (r : Request) : Stands s (s.applyAndComplete p r) := by
  have h : Stands s (applyRequest p r s).state := stands_effect (applyRequest_effect p s r)
  exact ⟨h.1, h.2⟩

theorem stands_applyDeferred (s : State) (p : PortId) : Stands s (s.applyDeferred p) := by
  unfold State.applyDeferred
  split
  · exact stands_applyAndComplete s p _
  · exact stands_applyAndComplete s p _
  · exact stands_refl s

theorem stands_applyWaiting (s : State) (d : Deferred) : Stands s (s.applyWaiting d) := by
  cases d with
  | request p => exact stands_applyDeferred s p
  | tick => exact stands_finishLapses s.countTick

theorem stands_applyDeferredUpTo (s : State) (p : PortId) : Stands s (s.applyDeferredUpTo p) := by
  refine Stands.trans (s := List.foldl State.applyWaiting { s with deferredOrder := _ } _) ?_ (stands_applyDeferred _ p)
  exact stands_foldl stands_applyWaiting _ { s with deferredOrder := _ }

theorem stands_takeRequest (s : State) (p : PortId) (tag : Byte) (r : Request) : Stands s (s.takeRequest p tag r) := by
  unfold State.takeRequest
  split
  · exact stands_applyAndComplete (s.showPending p tag) p r
  · exact ⟨rfl, rfl⟩

theorem stands_takeMemory (s : State) (p : PortId) (tag : Byte) (r : Except ResultCode MemoryRequest) :
    Stands s (s.takeMemory p tag r) := by
  cases r <;> exact ⟨rfl, rfl⟩

/-! ### The beginning of a grant, which the array may change at -/

theorem board_matchAll (s : State) (pr : Presentation) : board (s.matchAll pr) = board s :=
  board_sameOutside (matchAll_spec s pr).1

theorem board_blockAll (s : State) (writer : Actor) (addrs : List Nat) (address size : Nat) :
    board (s.blockAll writer addrs address size) = board s :=
  board_aside (blockAll_spec s writer addrs address size).1

theorem board_storeMotion (s : State) (p : PortId) (m : Option (CursorId × Nat)) :
    board (s.storeMotion p m) = board s :=
  board_ports (storeMotion_fields s p m)

theorem board_reportNullRef (s : State) (p : PortId) (r : MemoryRequest) : board (s.reportNullRef p r) = board s := by
  unfold State.reportNullRef
  split
  · split
    · split <;> rfl
    · rfl
    · rfl
  · rfl
  · rfl

theorem board_holdArray {p : PortId} {code : ResultCode} {data : List Byte} :
    board (s.holdArray p code data) = board s := rfl

theorem board_withGrant {g : Option Grant} : board { s with grant := g } = board s := rfl

theorem board_accessAt (s : State) (p : PortId) (op : MemoryOp) (place : Place) :
    board (s.accessAt p op place) = board s := by
  unfold State.accessAt
  split
  · rfl
  · split
    · exact board_holdArray.trans (board_blockAll s _ _ _ _)
    · exact board_holdArray.trans
        ((board_matchAll _ _).trans (board_storeMotion { s with array := _ } p place.motion))

theorem board_beginAccess {p : PortId} {r : MemoryRequest} (hb : beginAccess p r s = .next t) : board t = board s := by
  unfold beginAccess at hb
  split at hb
  · cases hb
    split
    · exact board_holdArray.trans (board_reportNullRef s p r)
    · rfl
  · split at hb
    · cases hb
      exact board_accessAt s p _ _
    · cases hb

theorem board_segmentAt (s : State) (k : ChannelId) : board (s.segmentAt k) = board s := by
  unfold State.segmentAt
  dsimp only
  split
  · rfl
  · split
    · exact board_withGrant.trans (board_blockAll s _ _ _ _)
    · exact board_withGrant.trans ((board_matchAll _ _).trans (board_matchAll { s with array := _ } _))

theorem board_beginSegment {k : ChannelId} (hb : beginSegment k s = .next t) : board t = board s := by
  unfold beginSegment at hb
  dsimp only at hb
  split at hb
  · cases hb
    exact board_segmentAt _ k
  · cases hb

/-! ### Each stage -/

theorem stands_stage (h : Stage s t) : Stands s t := by
  cases h with
  | finishLapses => exact stands_finishLapses s
  | nextLapse => exact stands_nextLapse s
  | postLate => exact stands_postLate s
  | appliesWaiting hg => exact stands_foldl stands_applyWaiting s.deferredOrder { s with deferredOrder := [] }
  | completes post => exact stands_completeAccess s post
  | appliesUpTo hp => exact (stands_completeAccess s .atOnce).trans (stands_applyDeferredUpTo _ _)
  | appliesFirst hp =>
    exact (stands_completeAccess s .atOnce).trans (stands_applyDeferred { s.completeAccess .atOnce with
      deferredOrder := _ } _)
  | counts ht => exact ⟨rfl, rfl⟩
  | tickWaits ht => exact ⟨rfl, rfl⟩
  | frameStarts p => exact ⟨rfl, rfl⟩
  | wakes hm => exact ⟨rfl, rfl⟩
  | dark p hf => exact ⟨rfl, rfl⟩
  | frameEnds p bits => exact ⟨rfl, rfl⟩
  | lengthFault hl bits => exact ⟨rfl, rfl⟩
  | busy hl bits => exact ⟨rfl, rfl⟩
  | answers hl hi bits tag code => exact ⟨rfl, rfl⟩
  | takesRequest hl hi bits tag r => exact stands_takeRequest (s.closeFrame _ bits) _ tag r
  | takesMemory hl hi bits tag target op => exact stands_takeMemory (s.closeFrame _ bits) _ tag _

theorem board_begins (h : Begins s t) : board t = board s := by
  cases h with
  | access hc hb =>
    have h := board_beginAccess hb
    exact (stands_postLate _).1.trans h
  | segment hc hb =>
    have h := board_beginSegment hb
    exact (stands_postLate _).1.trans h

theorem pending_power (h : Power s t) : t.pending = s.pending := by
  cases h <;> rfl

theorem pending_act (h : Act s t) : t.pending = s.pending := by
  cases h with
  | stage h => exact congrArg Board.pending (stands_stage h).1
  | begins h => exact congrArg Board.pending (board_begins h)
  | power h => exact pending_power h

end Operations

/-! ### Every command -/

section Commands

variable {s t : State} {i : Instr}

theorem exec_pending (he : exec i s = .next t) : t.pending = s.pending :=
  (exec_acts he).keeps (I := fun u => u.pending = s.pending) (fun _ _ h hu => (pending_act h).trans hu) rfl

theorem exec_array (hq : quiet i = true) (he : exec i s = .next t) : t.array = s.array :=
  (exec_stages hq he).keeps (I := fun u => u.array = s.array) (fun _ _ h hu => (stands_stage h).2.trans hu) rfl

theorem nresetAssertion_array (he : execNresetAssertion s = .next t) : t.array = s.array := by
  unfold execNresetAssertion at he
  cases he
  split
  · rfl
  · split <;> rfl

theorem nresetRelease_array (he : execNresetRelease s = .next t) : t.array = s.array := by
  unfold execNresetRelease at he
  cases he
  split
  · rfl
  · split
    · rfl
    · split <;> rfl

/-- Settles O2: the stages of a command leave the queue, and those of a command that is no grant and no event of the
board leave the array too. -/
theorem commandsLeaveQueueAndArray : Obligations.CommandsLeaveQueueAndArray := by
  refine ⟨fun c s t => exec_pending, fun c s t he hpower hfill hloss hmemory hsegment a => ?_⟩
  refine congrArg (fun m : Memory => m.read a) ?_
  cases hq : quiet c with
  | true => exact exec_array hq he
  | false =>
    cases c
    case nresetAssertion => exact nresetAssertion_array he
    case nresetRelease => exact nresetRelease_array he
    case powerOnReset => exact absurd rfl hpower
    case fillEnd => exact absurd rfl hfill
    case supplyLoss => exact absurd rfl hloss
    case memoryGrant span => exact absurd rfl (hmemory span)
    case segmentGrant span => exact absurd rfl (hsegment span)
    all_goals cases hq

end Commands

end Sys2Proof.StandingFields
end

section
/-! SUPPORT. What bounds a region, a cursor, a channel and a waiting request: the changes that keep everything inside the
array, one request after another, and the request in flight that no request changes (R22, R24 to R28, R117). -/

namespace Sys2Proof.InsideArray

open Sys2Proof Sys2Proof.Machine Sys2Proof.Claims Sys2Proof.RequestEffects Sys2Proof.Posting

/-! ### When a change keeps the bounds -/

/-- Regions stand, no cursor is bound or moved, no range of a channel is moved, and no request comes to wait for its
grant. -/
structure SameGround (s t : State) : Prop where
  region : ∀ a, (t.anchor a).region = (s.anchor a).region
  ring : ∀ a, (t.anchor a).ring = (s.anchor a).ring
  cursor : ∀ p c, ∀ b ∈ (t.port p).cursor c, b ∈ (s.port p).cursor c
  channel : ∀ k, (s.channel k).inside → (t.channel k).inside
  waiting : ∀ p r, (t.port p).inFlight = some (.waiting r) → (s.port p).inFlight = some (.waiting r)

section Ground

variable {r s t : State}

theorem sameGround_refl (s : State) : SameGround s s :=
  ⟨fun _ => rfl, fun _ => rfl, fun _ _ _ h => h, fun _ h => h, fun _ _ h => h⟩

theorem SameGround.trans (h : SameGround r s) (g : SameGround s t) : SameGround r t where
  region a := (g.region a).trans (h.region a)
  ring a := (g.ring a).trans (h.ring a)
  cursor p c b hb := h.cursor p c b (g.cursor p c b hb)
  channel k hk := g.channel k (h.channel k hk)
  waiting p m hm := h.waiting p m (g.waiting p m hm)

theorem bindingInside_of_anchor {b : Binding} (hr : (t.anchor b.anchor).region = (s.anchor b.anchor).region)
    (hg : (t.anchor b.anchor).ring = (s.anchor b.anchor).ring) (h : s.bindingInside b) : t.bindingInside b := by
  unfold State.bindingInside
  rw [hr, hg]
  exact h

theorem SameGround.inBounds (g : SameGround s t) (h : s.inBounds) : t.inBounds := by
  obtain ⟨hr, hc, hk, hw⟩ := h
  refine ⟨fun a => ?_, fun p c b hb => ?_, fun k => g.channel k (hk k), fun p x op hi => hw p x op (g.waiting p _ hi)⟩
  · unfold Anchor.inside
    rw [g.region a]
    exact hr a
  · exact bindingInside_of_anchor (g.region b.anchor) (g.ring b.anchor) (hc p c b (g.cursor p c b hb))

/-! ### Changes that leave it -/

theorem posted_cursor (h : Posted s t) (p : PortId) (c : CursorId) : (t.port p).cursor c = (s.port p).cursor c := by
  obtain ⟨ns, ht⟩ := h p
  rw [ht]
  exact List.foldlRecOn (motive := fun x : Port => x.cursor c = (s.port p).cursor c) ns _ rfl
    (fun x hx n _ => (post_cursor x n c).trans hx)

/-- Notices are posted, and channels keep their configurations. -/
theorem sameGround_of_posted (hp : Posted s t) (ha : t.anchors = s.anchors)
    (hk : ∀ k, (t.channel k).config = (s.channel k).config) : SameGround s t := by
  have han : ∀ a, t.anchor a = s.anchor a := fun a => congrArg (fun v : Vector Anchor 32 => v[a]) ha
  refine ⟨fun a => by rw [han], fun a => by rw [han], fun p c b hb => ?_, fun k => ?_, fun p m hm => ?_⟩
  · rwa [← posted_cursor hp p c]
  · unfold Channel.inside
    rw [hk k]
    exact id
  · rwa [← hp.inFlight p]

theorem sameGround_modPort {p : PortId} {f : Port → Port}
    (hc : ∀ c, ∀ b ∈ (f (s.port p)).cursor c, b ∈ (s.port p).cursor c)
    (hi : ∀ m, (f (s.port p)).inFlight = some (.waiting m) → (s.port p).inFlight = some (.waiting m)) :
    SameGround s (s.modPort p f) := by
  refine ⟨fun _ => rfl, fun _ => rfl, fun q c => ?_, fun _ h => h, fun q m => ?_⟩
  · rw [port_modPort]
    split
    · next hq => exact hq ▸ hc c
    · exact fun _ hb => hb
  · rw [port_modPort]
    split
    · next hq => exact hq ▸ hi m
    · exact id

/-- A change of a port that leaves its cursors and its request in flight. -/
theorem sameGround_modPort_aside {p : PortId} {f : Port → Port} (hc : (f (s.port p)).cursors = (s.port p).cursors)
    (hi : (f (s.port p)).inFlight = (s.port p).inFlight) : SameGround s (s.modPort p f) := by
  refine sameGround_modPort (fun c b hb => ?_) (fun m hm => hi ▸ hm)
  unfold Port.cursor at hb ⊢
  rwa [← hc]

theorem sameGround_postTo (s : State) (set : BitVec 4) (n : Notice) : SameGround s (s.postTo set n) :=
  sameGround_of_posted ((posted_refl s).postTo set n) rfl (fun _ => rfl)

theorem sameGround_complete (s : State) (p : PortId) (code : ResultCode) (data : List Byte) :
    SameGround s (s.complete p code data) :=
  sameGround_modPort (fun _ _ hb => hb) (fun _ hm => by cases hm)

/-! ### Changes that move a region, a cursor or a range inside the array -/

theorem inBounds_setChannel (h : s.inBounds) {k : ChannelId} {e : Channel} (he : e.inside) :
    (s.setChannel k e).inBounds := by
  obtain ⟨hr, hc, hk, hw⟩ := h
  refine ⟨hr, hc, fun j => ?_, hw⟩
  rw [channel_setChannel]
  split
  · exact he
  · exact hk j

theorem inBounds_setCursor (h : s.inBounds) {p : PortId} {c : CursorId} {b : Option Binding}
    (hb : ∀ x ∈ b, s.bindingInside x) : (s.modPort p (fun q => q.setCursor c b)).inBounds := by
  obtain ⟨hr, hc, hk, hw⟩ := h
  refine ⟨hr, fun q d => ?_, hk, fun q => ?_⟩
  · rw [port_modPort]
    split
    · next hq =>
      rw [cursor_setCursor]
      split
      · exact hb
      · exact hc p d
    · exact hc q d
  · rw [port_modPort]
    split
    · next hq => exact hw p
    · exact hw q

theorem port_mapCursors (s : State) (g : Option Binding → Option Binding) (p : PortId) (c : CursorId) :
    ((s.mapCursors g).port p).cursor c = g ((s.port p).cursor c) := by
  rw [State.mapCursors, port_mapPorts]
  exact tableMap_getElem g (s.port p).cursors c.val c.isLt

theorem inFlight_mapCursors (s : State) (g : Option Binding → Option Binding) (p : PortId) :
    ((s.mapCursors g).port p).inFlight = (s.port p).inFlight := by
  rw [State.mapCursors, port_mapPorts]

/-- An anchor is replaced: a cursor stays bound to another anchor, or is within the bounds of the new entry. -/
theorem inBounds_setAnchor (h : s.inBounds) {a : AnchorId} {e : Anchor} {g : Option Binding → Option Binding}
    (he : e.inside)
    (hg : ∀ x, ∀ b ∈ g x, b.anchor ≠ a ∧ b ∈ x ∨
      b.anchor = a ∧ ∃ r ∈ e.region, b.offset ≤ r.length ∧ (e.ring = true → b.offset < r.length)) :
    ((s.setAnchor a e).mapCursors g).inBounds := by
  obtain ⟨hr, hc, hk, hw⟩ := h
  refine ⟨fun i => ?_, fun p c b hb => ?_, hk, fun p x op hi => hw p x op ?_⟩
  · rw [anchor_mapCursors_frame, anchor_setAnchor]
    split
    · exact he
    · exact hr i
  · rw [port_mapCursors, port_setAnchor_frame] at hb
    unfold State.bindingInside
    rw [anchor_mapCursors_frame, anchor_setAnchor]
    obtain ⟨hne, hb⟩ | ⟨heq, hin⟩ := hg _ b hb
    · rw [if_neg (Ne.symm hne)]
      exact hc p c b hb
    · rw [if_pos heq.symm]
      exact hin
  · rwa [inFlight_mapCursors] at hi

end Ground

/-! ### Requests -/

/-- The requests in flight stand, and what lay inside the array still does. -/
structure Tame (s t : State) : Prop where
  inFlight : ∀ p, (t.port p).inFlight = (s.port p).inFlight
  bounds : s.inBounds → t.inBounds

section Tameness

variable {r s t : State}

theorem tame_refl (s : State) : Tame s s := ⟨fun _ => rfl, id⟩

theorem Tame.trans (h : Tame r s) (g : Tame s t) : Tame r t :=
  ⟨fun p => (g.inFlight p).trans (h.inFlight p), fun hb => g.bounds (h.bounds hb)⟩

theorem tame_of_ground (g : SameGround s t) (hi : ∀ p, (t.port p).inFlight = (s.port p).inFlight) : Tame s t :=
  ⟨hi, g.inBounds⟩

theorem tame_of_posted (hp : Posted s t) (ha : t.anchors = s.anchors)
    (hk : ∀ k, (t.channel k).config = (s.channel k).config) : Tame s t :=
  tame_of_ground (sameGround_of_posted hp ha hk) hp.inFlight

theorem inFlight_modPort {p : PortId} {f : Port → Port} (hi : (f (s.port p)).inFlight = (s.port p).inFlight)
    (q : PortId) : ((s.modPort p f).port q).inFlight = (s.port q).inFlight := by
  rw [port_modPort]
  split
  · next hq => exact hq ▸ hi
  · rfl

/-- A change of a port that leaves its cursors and its request in flight. -/
theorem tame_modPort {p : PortId} {f : Port → Port} (hc : (f (s.port p)).cursors = (s.port p).cursors)
    (hi : (f (s.port p)).inFlight = (s.port p).inFlight) : Tame s (s.modPort p f) :=
  tame_of_ground (sameGround_modPort_aside hc hi) (inFlight_modPort hi)

theorem tame_postTo (s : State) (set : BitVec 4) (n : Notice) : Tame s (s.postTo set n) :=
  tame_of_posted ((posted_refl s).postTo set n) rfl (fun _ => rfl)

theorem tame_setChannel {k : ChannelId} {e : Channel} (he : (s.channel k).inside → e.inside) :
    Tame s (s.setChannel k e) :=
  ⟨fun _ => rfl, fun h => inBounds_setChannel h (he (h.2.2.1 k))⟩

theorem tame_setChannel_config {k : ChannelId} {e : Channel} (he : e.config = (s.channel k).config) :
    Tame s (s.setChannel k e) := by
  refine tame_setChannel ?_
  unfold Channel.inside
  rw [he]
  exact id

/-- A check decides between two outcomes. -/
theorem tame_ite {P : Prop} [Decidable P] {x y : Applied} (hx : Tame s x.state) (hy : ¬ P → Tame s y.state) :
    Tame s (if P then x else y).state := by
  split
  · exact hx
  · next hP => exact hy hP

end Tameness

section Requests

variable (p : PortId) (s : State)

/-! Ports and presence. -/

theorem tame_leaveSets : Tame s (s.leaveSets p) := by
  refine tame_of_ground ⟨fun _ => rfl, fun _ => rfl, fun _ _ _ h => h, fun k hk => ?_, fun _ _ h => h⟩ (fun _ => rfl)
  rw [channel_leaveSets]
  exact hk

theorem inFlight_portReset (q : PortId) : ((s.portReset p).port q).inFlight = (s.port q).inFlight :=
  inFlight_modPort (f := Port.reset) rfl q

/-- A port reset unbinds the port's cursors, and moves nothing (R143). -/
theorem tame_portReset : Tame s (s.portReset p) := by
  have hanchor : ∀ a, (s.portReset p).anchor a = (s.anchor a).orphan p :=
    fun a => tableMap_getElem (Anchor.orphan p) s.anchors a.val a.isLt
  have hchannel : ∀ k, (s.portReset p).channel k = (s.channel k).orphan p :=
    fun k => tableMap_getElem (Channel.orphan p) s.channels k.val k.isLt
  have hport : SameGround s (s.modPort p Port.reset) :=
    sameGround_modPort (fun c b hb => by fin_cases c <;> cases hb) (fun _ h => h)
  refine tame_of_ground ⟨fun a => ?_, fun a => ?_, hport.cursor, fun k hk => ?_, hport.waiting⟩
    (inFlight_portReset p s)
  · rw [hanchor]
    rfl
  · rw [hanchor]
    rfl
  · rw [hchannel]
    exact hk

theorem tame_setMode (m : PortMode) : Tame s (s.setMode p m) := tame_modPort rfl rfl

theorem tame_applyAttach : Tame s (applyAttach p s).state :=
  tame_ite (((tame_leaveSets p s).trans (tame_setMode p _ _)).trans (tame_postTo _ _ _))
    (fun _ => ((tame_portReset p s).trans (tame_setMode p _ _)).trans (tame_postTo _ _ _))

theorem tame_applyDetach : Tame s (applyDetach p s).state :=
  ((tame_portReset p s).trans (tame_setMode p _ _)).trans (tame_postTo _ _ _)

/-! The notice unit. -/

theorem tame_applyTakeNotice (mode : Byte) : Tame s (applyTakeNotice p mode s).state := by
  refine tame_ite (tame_refl s) (fun _ => ?_)
  split
  · exact tame_refl s
  · refine tame_ite (tame_refl s) (fun _ => tame_modPort (f := fun _ => _) ?_ ?_)
    · split <;> rfl
    · split <;> rfl

theorem tame_applyFinishService : Tame s (applyFinishService p s).state := by
  unfold applyFinishService
  dsimp only
  split
  · exact tame_refl s
  · exact tame_modPort (f := fun _ => _) rfl rfl

/-! Anchors and cursors (R24 to R28). -/

theorem mem_unbindFrom {a : AnchorId} {x : Option Binding} {b : Binding} (h : b ∈ unbindFrom a x) :
    b.anchor ≠ a ∧ b ∈ x := by
  cases x with
  | none => cases h
  | some y =>
    simp only [unbindFrom] at h
    split at h
    · cases h
    · next hy =>
      cases h
      exact ⟨hy, rfl⟩

theorem mem_rewindBinding {a : AnchorId} {x : Option Binding} {b : Binding} (h : b ∈ rewindBinding a x) :
    b.anchor ≠ a ∧ b ∈ x ∨ b = ⟨a, 0⟩ := by
  cases x with
  | none => cases h
  | some y =>
    simp only [rewindBinding] at h
    split at h
    · cases h
      exact .inr rfl
    · next hy =>
      cases h
      exact .inl ⟨hy, rfl⟩

/-- An anchor that becomes null has no cursor bound to it (R26, R47). -/
theorem tame_unbind {a : AnchorId} {e : Anchor} (he : e.region = none) :
    Tame s ((s.setAnchor a e).mapCursors (unbindFrom a)) :=
  ⟨fun q => inFlight_mapCursors _ _ q,
    fun h => inBounds_setAnchor h (by simp [Anchor.inside, he]) (fun _ _ hb => .inl (mem_unbindFrom hb))⟩

/-- An anchor with a region has the cursors bound to it at offset 0 (R25). -/
theorem tame_rewind {a : AnchorId} {e : Anchor} {g : Region} (he : e.region = some g) (hl : 1 ≤ g.length)
    (hf : g.base + g.length ≤ Config.arraySize) : Tame s ((s.setAnchor a e).mapCursors (rewindBinding a)) := by
  refine ⟨fun q => inFlight_mapCursors _ _ q, fun h => inBounds_setAnchor h ?_ (fun x b hb => ?_)⟩
  · intro x hx
    rw [he] at hx
    cases hx
    exact ⟨hl, hf⟩
  · obtain hb | rfl := mem_rewindBinding hb
    · exact .inl hb
    · exact .inr ⟨rfl, g, he, Nat.zero_le _, fun _ => hl⟩

theorem tame_applySetAnchor (b : AnchorBytes) : Tame s (applySetAnchor p b s).state := by
  unfold applySetAnchor
  split
  · refine tame_ite (tame_refl s) (fun hl => tame_ite (tame_refl s) (fun _ => ?_))
    by_cases hn : b.base = nullBase
    · rw [if_pos hn]
      exact tame_unbind s rfl
    · rw [if_neg hn]
      refine tame_ite (tame_refl s) (fun hf => tame_rewind s rfl ?_ (Nat.le_of_not_lt hf))
      exact Nat.pos_of_ne_zero (fun h0 => hl ⟨hn, .inl h0⟩)
  · exact tame_refl s

theorem admitsOffset_iff (g : Region) (ring : Bool) (offset : Nat) :
    g.admitsOffset ring offset = true ↔ offset ≤ g.length ∧ (ring = true → offset < g.length) := by
  cases ring with
  | false => simp [Region.admitsOffset]
  | true =>
    simp only [Region.admitsOffset, if_true, decide_eq_true_eq, forall_const]
    omega

theorem tame_applyBindCursor (cursor anchor : Byte) (offset : Half) :
    Tame s (applyBindCursor p cursor anchor offset s).state := by
  unfold applyBindCursor
  split
  · next c a _ _ =>
    split
    · exact tame_refl s
    · next g hg =>
      refine tame_ite (tame_refl s) (fun ho => ⟨inFlight_modPort rfl, fun h => inBounds_setCursor h ?_⟩)
      rintro b ⟨⟩
      exact ⟨g, hg, (admitsOffset_iff g _ _).mp (by simpa using ho)⟩
  · exact tame_refl s

theorem tame_applyQueryCursor (cursor : Byte) : Tame s (applyQueryCursor p cursor s).state := by
  unfold applyQueryCursor
  split <;> exact tame_refl s

/-! Watches: no bound looks at one. -/

theorem tame_setWatch (w : WatchId) (e : Watch) : Tame s (s.setWatch w e) := ⟨fun _ => rfl, id⟩

theorem tame_applySetWatch (b : WatchBytes) : Tame s (applySetWatch p b s).state := by
  unfold applySetWatch
  split
  · exact tame_refl s
  · exact tame_ite (tame_refl s) (fun _ => tame_setWatch s _ _)

theorem tame_applySubscribe (watch : Byte) : Tame s (applySubscribe p watch s).state := by
  unfold applySubscribe
  split
  · exact tame_refl s
  · exact tame_ite (tame_refl s) (fun _ => tame_setWatch s _ _)

theorem tame_applyUnsubscribe (watch : Byte) : Tame s (applyUnsubscribe p watch s).state := by
  unfold applyUnsubscribe
  split
  · exact tame_refl s
  · exact tame_ite (tame_refl s) (fun _ => tame_setWatch s _ _)

/-! Channels (R117). -/

/-- The ranges of an admitted SET_CHANNEL lie inside the array, apart from each other. -/
theorem inside_of_channelConfig? {b : ChannelBytes} {k : ChannelId} {c : ChannelConfig} {e : Channel}
    (h : channelConfig? b = some (k, c)) (he : e.config = c) : e.inside := by
  obtain ⟨-, ha, rfl⟩ := ChannelRequests.admitted_of_channelConfig? h
  unfold Channel.inside
  rw [he]
  exact ⟨ha.length.2, ha.sourceEnd, ha.destinationEnd, ha.apart.symm⟩

theorem tame_applySetChannel (b : ChannelBytes) : Tame s (applySetChannel p b s).state := by
  unfold applySetChannel
  split
  · exact tame_refl s
  · next k c hc =>
    exact tame_ite (tame_refl s) (fun _ => tame_ite (tame_refl s)
      (fun _ => tame_setChannel (fun _ => inside_of_channelConfig? hc rfl)))

theorem tame_applyArmChannel (channel : Byte) : Tame s (applyArmChannel p channel s).state := by
  unfold applyArmChannel
  split
  · exact tame_refl s
  · exact tame_ite (tame_refl s) (fun _ => tame_ite (tame_refl s) (fun _ => tame_ite (tame_refl s)
      (fun _ => tame_setChannel_config rfl)))

theorem tame_applyStartChannel (channel : Byte) : Tame s (applyStartChannel p channel s).state := by
  unfold applyStartChannel
  split
  · exact tame_refl s
  · exact tame_ite (tame_refl s) (fun _ => tame_ite (tame_refl s)
      (fun _ => tame_setChannel_config (ChannelChanges.trigger_config _)))

theorem tame_abort (k : ChannelId) : Tame s (s.abort k) := by
  cases h : (s.channel k).inRun with
  | true =>
    rw [RunEnds.abort_running h]
    exact (tame_setChannel_config (e := { s.channel k with phase := .idle, collapsed := 0 }) rfl).trans
      (tame_postTo _ _ _)
  | false =>
    rw [RunEnds.abort_at_rest h]
    exact tame_setChannel_config rfl

theorem tame_applyAbortChannel (channel : Byte) : Tame s (applyAbortChannel p channel s).state := by
  unfold applyAbortChannel
  split
  · exact tame_refl s
  · exact tame_ite (tame_refl s) (fun _ => tame_abort s _)

/-! Ownership. -/

theorem tame_setOwner (x : Entry) (o : Owner) : Tame s (s.setOwner x o) := by
  cases x with
  | anchor a =>
    refine tame_of_ground ⟨fun i => ?_, fun i => ?_, fun _ _ _ h => h, fun _ h => h, fun _ _ h => h⟩ (fun _ => rfl)
    · rw [State.setOwner, anchor_setAnchor]
      split
      · next hi => rw [← hi]
      · rfl
    · rw [State.setOwner, anchor_setAnchor]
      split
      · next hi => rw [← hi]
      · rfl
  | watch w => exact tame_setWatch s w _
  | channel k => exact tame_setChannel_config rfl

/-- The channel defaults name no byte (R116). -/
theorem default_inside : Channel.default.inside := by decide

theorem tame_releaseEntry (x : Entry) : Tame s (s.releaseEntry x) := by
  cases x with
  | anchor a => exact tame_unbind s rfl
  | watch w => exact tame_setWatch s w _
  | channel k => exact tame_setChannel (fun _ => default_inside)

theorem tame_applyClaim (table index : Byte) : Tame s (applyClaim p table index s).state := by
  unfold applyClaim
  split
  · exact tame_refl s
  · exact tame_ite (tame_setOwner s _ _) (fun _ => tame_refl s)

theorem tame_applyAdopt (table index : Byte) : Tame s (applyAdopt p table index s).state := by
  unfold applyAdopt
  split
  · exact tame_refl s
  · exact tame_ite (tame_setOwner s _ _) (fun _ => tame_refl s)

theorem tame_applyRelease (table index : Byte) : Tame s (applyRelease p table index s).state := by
  unfold applyRelease
  split
  · exact tame_refl s
  · exact tame_ite (tame_refl s) (fun _ => tame_ite (tame_refl s) (fun _ => tame_releaseEntry s _))

theorem tame_applyQueryEntry (table index : Byte) : Tame s (applyQueryEntry p table index s).state := by
  unfold applyQueryEntry
  split <;> exact tame_refl s

/-! ### Every request -/

theorem tame_applyRequest (r : Request) : Tame s (applyRequest p r s).state := by
  have h := tame_refl s
  cases r with
  | attach => exact tame_applyAttach p s
  | detach => exact tame_applyDetach p s
  | doze => exact tame_ite h (fun _ => tame_setMode p s _)
  | setLevels threshold wake => exact tame_ite h (fun _ => tame_modPort (f := fun _ => _) rfl rfl)
  | clearFlags flags => exact tame_ite h (fun _ => tame_modPort (f := fun _ => _) rfl rfl)
  | takeNotice mode => exact tame_applyTakeNotice p s mode
  | finishService => exact tame_applyFinishService p s
  | setAnchor a => exact tame_applySetAnchor p s a
  | bindCursor cursor anchor offset => exact tame_applyBindCursor p s cursor anchor offset
  | queryCursor cursor => exact tame_applyQueryCursor p s cursor
  | setWatch w => exact tame_applySetWatch p s w
  | subscribe watch => exact tame_applySubscribe p s watch
  | unsubscribe watch => exact tame_applyUnsubscribe p s watch
  | setChannel c => exact tame_applySetChannel p s c
  | armChannel channel => exact tame_applyArmChannel p s channel
  | startChannel channel => exact tame_applyStartChannel p s channel
  | abortChannel channel => exact tame_applyAbortChannel p s channel
  | claim table index => exact tame_applyClaim p s table index
  | adopt table index => exact tame_applyAdopt p s table index
  | release table index => exact tame_applyRelease p s table index
  | queryEntry table index => exact tame_applyQueryEntry p s table index

/-- A request applied and completed: of the requests in flight, only its own ends (R161). -/
theorem inBounds_applyAndComplete {s : State} (h : s.inBounds) (r : Request) : (s.applyAndComplete p r).inBounds :=
  (sameGround_complete _ p _ _).inBounds ((tame_applyRequest p s r).bounds h)

theorem inFlight_applyAndComplete (r : Request) (q : PortId) :
    ((s.applyAndComplete p r).port q).inFlight = if p = q then none else (s.port q).inFlight := by
  unfold State.applyAndComplete State.complete
  rw [port_modPort]
  split
  · rfl
  · exact (tame_applyRequest p s r).inFlight q

end Requests

end Sys2Proof.InsideArray
end

section
/-! SUPPORT. The place of an access that resolution admits (R10, R30 to R37): its addresses, the motion it stores, and the
refusals in their order; the statements about it. -/

namespace Sys2Proof.Resolution

open Sys2Proof Sys2Proof.Machine Sys2Proof.Claims

/-! ### The addresses of a block (R31, R32) -/

theorem span_eq_range (start size : Nat) : span start size = (List.range size).map (fun i => start + i) :=
  List.range'_eq_map_range

theorem addrs_ring (g : Region) (offset size : Nat) :
    g.addrs true offset size = (List.range size).map (fun i => g.base + (offset + i) % g.length) := rfl

theorem addrs_linear (g : Region) (offset size : Nat) :
    g.addrs false offset size = (List.range size).map (fun i => g.base + (offset + i)) := rfl

/-- `size` bytes from an offset on lie in the region: around the ring, or before its end. -/
def Fits (g : Region) (ring : Bool) (offset size : Nat) : Prop :=
  if ring = true then size ≤ g.length else offset + size ≤ g.length

/-- The addresses exist, are different from each other, and are as many as the bytes. -/
def Exist (addrs : List Nat) (size : Nat) : Prop := inArray addrs = true ∧ addrs.Nodup ∧ addrs.length = size

theorem exist_map_range {f : Nat → Nat} {size : Nat} (hf : ∀ i < size, f i < Config.arraySize)
    (hinj : ∀ i < size, ∀ j < size, f i = f j → i = j) : Exist ((List.range size).map f) size := by
  refine ⟨?_, List.nodup_range.map_on (fun i hi j hj => ?_), by simp⟩
  · simpa [inArray] using hf
  · exact hinj i (List.mem_range.mp hi) j (List.mem_range.mp hj)

theorem exist_span {start size : Nat} (h : start + size ≤ Config.arraySize) : Exist (span start size) size := by
  rw [span_eq_range]
  exact exist_map_range (fun i hi => by omega) (fun i _ j _ hij => by omega)

/-- Two offsets around a ring, less than its length apart, name different bytes. -/
theorem ring_offset_inj {offset length i j : Nat} (hi : i < length) (hj : j < length)
    (h : (offset + i) % length = (offset + j) % length) : i = j := by
  have hij : i ≡ j [MOD length] := Nat.ModEq.add_left_cancel' offset h
  rwa [Nat.ModEq, Nat.mod_eq_of_lt hi, Nat.mod_eq_of_lt hj] at hij

theorem exist_addrs {g : Region} {ring : Bool} {offset size : Nat} (hl : 1 ≤ g.length)
    (hg : g.base + g.length ≤ Config.arraySize) (hf : Fits g ring offset size) :
    Exist (g.addrs ring offset size) size := by
  cases ring with
  | false =>
    have hf : offset + size ≤ g.length := hf
    rw [addrs_linear]
    exact exist_map_range (fun i hi => by omega) (fun i _ j _ hij => by omega)
  | true =>
    have hf : size ≤ g.length := hf
    rw [addrs_ring]
    refine exist_map_range (fun i hi => ?_) (fun i hi j hj hij => ?_)
    · have hm : (offset + i) % g.length < g.length := Nat.mod_lt _ hl
      omega
    · exact ring_offset_inj (hi.trans_le hf) (hj.trans_le hf) (Nat.add_left_cancel hij)

/-! ### An admitted access -/

/-- What resolution admits (R10, R30 to R37). -/
inductive Admitted (s : State) (p : PortId) (r : MemoryRequest) : Place → Prop where
  | absolute {a : Nat} (ht : r.target = .absolute a) : Admitted s p r ⟨span a r.op.size, none⟩
  | anchored {a : AnchorId} {offset : Nat} {g : Region} (ht : r.target = .anchored a offset)
      (hg : (s.anchor a).region = some g) (hf : g.fits (s.anchor a).ring offset r.op.size = true) :
      Admitted s p r ⟨g.addrs (s.anchor a).ring offset r.op.size, none⟩
  | cursor {c : CursorId} {m : Motion} {b : Binding} {g : Region} {first : Nat} (ht : r.target = .cursor c m)
      (hb : (s.port p).cursor c = some b) (hg : (s.anchor b.anchor).region = some g)
      (hf : m.first g (s.anchor b.anchor).ring b.offset r.op.size = some first) :
      Admitted s p r ⟨g.addrs (s.anchor b.anchor).ring first r.op.size,
        some (c, m.stored g (s.anchor b.anchor).ring b.offset first r.op.size)⟩

theorem admitted_of_resolve {s : State} {p : PortId} {r : MemoryRequest} {place : Place}
    (h : s.resolve p r = .ok place) : Admitted s p r place := by
  unfold State.resolve at h
  split at h
  · next ht =>
    cases h
    exact .absolute ht
  · next ht =>
    dsimp only at h
    split at h
    · cases h
    · next hg =>
      split_ifs at h with ho hf
      cases h
      exact .anchored ht hg (by simpa using hf)
  · next ht =>
    split at h
    · cases h
    · next hb =>
      dsimp only at h
      split at h
      · cases h
      · next hg =>
        split at h
        · cases h
        · split at h
          · cases h
          · next hf =>
            cases h
            exact .cursor ht hb hg hf

/-- The first offset of an admitted CURSOR access (R36, R37). -/
theorem fits_of_first {m : Motion} {g : Region} {ring : Bool} {o size first : Nat}
    (h : m.first g ring o size = some first) (ho : o ≤ g.length) : Fits g ring first size := by
  unfold Fits
  cases m <;> cases ring <;> simp [Motion.first] at h ⊢ <;> omega

/-- The offset that a motion stores lies within the anchor's bounds (R27, R36, R37). -/
theorem stored_inside {m : Motion} {g : Region} {ring : Bool} {o size first : Nat}
    (h : m.first g ring o size = some first) (hl : 1 ≤ g.length) (ho : o ≤ g.length)
    (hr : ring = true → o < g.length) :
    m.stored g ring o first size ≤ g.length ∧ (ring = true → m.stored g ring o first size < g.length) := by
  cases ring with
  | false =>
    refine ⟨?_, Bool.noConfusion⟩
    cases m <;> simp [Motion.first, Motion.stored] at h ⊢ <;> omega
  | true =>
    have hlt : m.stored g true o first size < g.length := by
      rcases m with _ | _ | _
      · exact hr rfl
      · exact Nat.mod_lt _ hl
      · simp only [Motion.first, if_true, Option.ite_none_right_eq_some, Option.some.injEq] at h
        exact h.2 ▸ Nat.mod_lt _ hl
    exact ⟨hlt.le, fun _ => hlt⟩

theorem fits_of_anchored {g : Region} {ring : Bool} {offset size : Nat} (h : g.fits ring offset size = true) :
    Fits g ring offset size := by
  cases ring with
  | false => simpa [Region.fits, Fits] using h
  | true =>
    have h : offset < g.length ∧ size ≤ g.length := by simpa [Region.fits] using h
    exact h.2

section InBounds

variable {s : State} {p : PortId} {r : MemoryRequest} {place : Place}

theorem resolved_exist (h : s.inBounds) (hi : (s.port p).inFlight = some (.waiting r))
    (hr : s.resolve p r = .ok place) : Exist place.addrs r.op.size := by
  obtain ⟨hregion, hcursor, -, hfits⟩ := h
  cases admitted_of_resolve hr with
  | absolute ht =>
    obtain ⟨t, op⟩ := r
    cases ht
    exact exist_span (of_decide_eq_true (hfits p _ op hi))
  | anchored ht hg hf =>
    obtain ⟨hl, hb⟩ := hregion _ _ hg
    exact exist_addrs hl hb (fits_of_anchored hf)
  | cursor ht hb hg hf =>
    obtain ⟨hl, hbase⟩ := hregion _ _ hg
    obtain ⟨g, hg', ho, -⟩ := hcursor p _ _ hb
    cases hg.symm.trans hg'
    exact exist_addrs hl hbase (fits_of_first hf ho)

/-- A motion that is stored keeps its cursor within its anchor's bounds (R38). -/
theorem motion_inside (h : s.inBounds) (hr : s.resolve p r = .ok place) {c : CursorId} {o : Nat}
    (hm : place.motion = some (c, o)) : ∃ b, (s.port p).cursor c = some b ∧ s.bindingInside ⟨b.anchor, o⟩ := by
  obtain ⟨hregion, hcursor, -⟩ := h
  cases admitted_of_resolve hr with
  | absolute ht => cases hm
  | anchored ht hg hf => cases hm
  | cursor ht hb hg hf =>
    cases hm
    obtain ⟨g, hg', ho, hring⟩ := hcursor p _ _ hb
    cases hg.symm.trans hg'
    exact ⟨_, hb, _, hg, stored_inside hf (hregion _ _ hg).1 ho hring⟩

end InBounds

/-- Settles O40: each form of target that resolution admits reaches as many different bytes of the array as the request
has. -/
theorem resolvedAddressesExist : Obligations.ResolvedAddressesExist :=
  fun _ _ _ _ h hi hr => resolved_exist h hi hr

/-! ### Each target resolved, and each refusal -/

theorem admits_iff (e : Anchor) (p : PortId) (writes : Bool) :
    e.admits p writes = true ↔ (writes = true → e.access = .shared ∨ e.owner = .owned p) := by
  cases writes <;> simp [Anchor.admits]

section Targets

variable {s : State} {p : PortId} {op : MemoryOp} {a : AnchorId} {offset : Nat} {c : CursorId} {m : Motion} {b : Binding}
  {g : Region}

theorem resolve_anchored (hg : (s.anchor a).region = some g)
    (ha : op.writes = true → (s.anchor a).access = .shared ∨ (s.anchor a).owner = .owned p) :
    s.resolve p ⟨.anchored a offset, op⟩ =
      if g.fits (s.anchor a).ring offset op.size = true then .ok ⟨g.addrs (s.anchor a).ring offset op.size, none⟩
      else .error .outOfRange := by
  simp only [State.resolve, hg, (admits_iff _ p op.writes).mpr ha, Bool.not_true, Bool.false_eq_true, if_false]
  cases g.fits (s.anchor a).ring offset op.size <;> rfl

theorem resolve_cursor (hb : (s.port p).cursor c = some b) (hg : (s.anchor b.anchor).region = some g)
    (ha : op.writes = true → (s.anchor b.anchor).access = .shared ∨ (s.anchor b.anchor).owner = .owned p) :
    s.resolve p ⟨.cursor c m, op⟩ =
      (m.first g (s.anchor b.anchor).ring b.offset op.size).elim (.error .outOfRange) (fun first =>
        .ok ⟨g.addrs (s.anchor b.anchor).ring first op.size,
          some (c, m.stored g (s.anchor b.anchor).ring b.offset first op.size)⟩) := by
  simp only [State.resolve, hb, hg, (admits_iff _ p op.writes).mpr ha, Bool.not_true, Bool.false_eq_true, if_false]
  cases m.first g (s.anchor b.anchor).ring b.offset op.size <;> rfl

/-- A writing access through an anchor of another owner, with OWNER_WRITES (R34). -/
theorem not_admits {e : Anchor} (hw : op.writes = true) (hacc : e.access = .ownerWrites) (ho : e.owner ≠ .owned p) :
    e.admits p op.writes = false := by
  refine Bool.eq_false_iff.mpr (fun h => ?_)
  obtain h | h := (admits_iff e p op.writes).mp h hw
  · cases hacc.symm.trans h
  · exact ho h

theorem resolve_anchored_notOwner (hg : (s.anchor a).region = some g)
    (hn : (s.anchor a).admits p op.writes = false) : s.resolve p ⟨.anchored a offset, op⟩ = .error .notOwner := by
  simp only [State.resolve, hg, hn, Bool.not_false, if_true]

theorem resolve_cursor_notOwner (hb : (s.port p).cursor c = some b) (hg : (s.anchor b.anchor).region = some g)
    (hn : (s.anchor b.anchor).admits p op.writes = false) : s.resolve p ⟨.cursor c m, op⟩ = .error .notOwner := by
  simp only [State.resolve, hb, hg, hn, Bool.not_false, if_true]

/-- The first offsets of the three motions, around a ring and before an end (R35 to R37). -/
theorem first_ring {o size : Nat} (h : size ≤ g.length) :
    m.first g true o size = some (match m with
      | .at => o
      | .postAdvance => o
      | .preRetreat => (o + g.length - size) % g.length) := by
  cases m <;> simp [Motion.first, h]

theorem first_none {ring : Bool} {o size : Nat}
    (h : ring = true ∧ g.length < size ∨ ring = false ∧ m ≠ .preRetreat ∧ g.length < o + size ∨
      ring = false ∧ m = .preRetreat ∧ o < size) : m.first g ring o size = none := by
  obtain ⟨rfl, h⟩ | ⟨rfl, hm, h⟩ | ⟨rfl, rfl, h⟩ := h
  · cases m <;> simp [Motion.first, h]
  · cases m <;> simp [Motion.first, h] at hm ⊢
  · simp [Motion.first, h]

end Targets

/-- Settles O19: one equation for an anchor and one for a cursor, at the bounds of a ring and of a region with an end; and
one for each refusal. -/
theorem resolutionGivesPlaceOrRefuses : Obligations.ResolutionGivesPlaceOrRefuses := by
  refine ⟨fun s p op => ⟨fun address => ?absolute, fun a offset g hg ha => ?anchored, fun c b g hb hg ha => ?cursor⟩,
    fun s p op => ⟨fun c m hc => ?unbound, fun a offset hn => ?null,
      fun a offset g hg => ⟨fun hw hacc ho => resolve_anchored_notOwner hg (not_admits hw hacc ho), fun ha hout => ?out⟩,
      fun c m b g hb hg =>
        ⟨fun hw hacc ho => resolve_cursor_notOwner hb hg (not_admits hw hacc ho), fun ha hout => ?cursorOut⟩⟩⟩
  case absolute =>
    rw [← span_eq_range]
    rfl
  case anchored =>
    rw [resolve_anchored hg ha]
    refine ⟨fun hr hf => ?_, fun hr ho hf => ?_⟩
    · rw [hr, if_pos (by simpa [Region.fits] using hf)]
      rfl
    · rw [hr, if_pos (by simp [Region.fits, ho, hf])]
      rfl
  case cursor =>
    simp only [resolve_cursor hb hg ha]
    refine ⟨fun hr => ⟨fun hf => ?_, fun hf => ?_⟩, fun hr hf => ?_⟩
    · simp [hr, Motion.first, hf, Motion.stored, addrs_linear]
    · simp [hr, Motion.first, hf, Motion.stored, addrs_linear]
    · simp [hr, first_ring hf, Motion.stored, addrs_ring]
  case unbound => simp only [State.resolve, hc]
  case null => simp only [State.resolve, hn]
  case out =>
    have hf : ¬ g.fits (s.anchor a).ring offset op.size = true := by
      obtain ⟨hr, hf⟩ | ⟨hr, hf⟩ := hout
      · simpa [hr, Region.fits] using hf
      · simp only [hr, Region.fits, if_true, Bool.and_eq_true, decide_eq_true_eq]
        omega
    rw [resolve_anchored hg ha, if_neg hf]
  case cursorOut =>
    rw [resolve_cursor hb hg ha, first_none hout]
    rfl

end Sys2Proof.Resolution
end

section
/-! SUPPORT. Every stage keeps what it can reach inside the array, and the access it begins exists (R1, R22, R27, R117):
the statement that no step faults or leaves the array. -/

namespace Sys2Proof.StepBounds

open Sys2Proof Sys2Proof.Machine Sys2Proof.Claims Sys2Proof.Posting Sys2Proof.CommandStages Sys2Proof.InsideArray
  Sys2Proof.Resolution

/-! ### What is due, and the access completion -/

section Due

variable {s t : State}

theorem sameGround_postLate (s : State) : SameGround s s.postLate :=
  sameGround_of_posted (posted_refl s).postLate (postLate_anchors s)
    (fun k => congrArg (fun v : Vector Channel 4 => v[k].config) (postLate_channels s))

/-- Channels are triggered, and notices posted. -/
theorem sameGround_of_triggers (hp : Posted s t) (ha : t.anchors = s.anchors)
    (hk : ∀ k, t.channel k = s.channel k ∨ t.channel k = (s.channel k).trigger) : SameGround s t := by
  refine sameGround_of_posted hp ha (fun k => ?_)
  obtain hc | hc := hk k <;> rw [hc]
  exact ChannelChanges.trigger_config _

theorem lapseOf_anchors (s : State) (w : WatchId) : (s.lapseOf w).anchors = s.anchors := by
  have h := triggerOnce_sameOutside
    ((s.setWatch w ({ s.watch w with quiet := .lapsed, countdown := 0 } : Watch).hit).postTo (s.watch w).subscribers
      (quietNotice w (s.watch w).config.priority)) s.tickTriggered (s.watch w).config.trigger
  exact (congrArg State.anchors h).symm

theorem sameGround_lapseOf (s : State) (w : WatchId) : SameGround s (s.lapseOf w) :=
  sameGround_of_triggers ((posted_refl s).lapseOf w) (lapseOf_anchors s w)
    (ChannelChanges.triggerOnce_channel _ s.tickTriggered (s.watch w).config.trigger)

theorem sameGround_withLapsesDue (s : State) (ws : List WatchId) : SameGround s { s with lapsesDue := ws } :=
  sameGround_of_posted (posted_refl s) rfl (fun _ => rfl)

theorem sameGround_finishLapses (s : State) : SameGround s s.finishLapses := by
  have h : SameGround s (s.lapsesDue.foldl State.lapseOf s) :=
    List.foldlRecOn (motive := SameGround s) s.lapsesDue _ (sameGround_refl s)
      (fun u hu w _ => hu.trans (sameGround_lapseOf u w))
  exact h.trans (sameGround_withLapsesDue _ [])

theorem sameGround_nextLapse (s : State) : SameGround s s.nextLapse := by
  unfold State.nextLapse
  split
  · exact sameGround_refl s
  · exact (sameGround_lapseOf s _).trans (sameGround_withLapsesDue _ _)

theorem completion_config {e e' : Channel} {moved : Option Nat} (h : ChannelChanges.Completion e moved e') :
    e'.config = e.config := by
  cases h <;> rfl

/-- Notices are posted or kept, and a channel keeps its configuration. -/
theorem sameGround_of_report {k : ChannelId} {e : Channel} (hp : Posted s t)
    (h : { t with ports := s.ports, lateNotice := s.lateNotice } = s.setChannel k e)
    (he : e.config = (s.channel k).config) : SameGround s t := by
  have ha := congrArg State.anchors h
  refine sameGround_of_posted hp ha (fun j => ?_)
  have hj := congrArg (fun u : State => u.channel j) h
  have hc : t.channel j = (s.setChannel k e).channel j := hj
  rw [hc, channel_setChannel]
  split
  · next hj => exact hj ▸ he
  · rfl

theorem sameGround_segmentCompletes (s : State) (k : ChannelId) (moved : Option Nat) (post : RunEndPost) :
    SameGround s (s.segmentCompletes k moved post) := by
  obtain ⟨e, hc, h⟩ := ChannelChanges.segmentCompletes_spec s k post moved
  exact sameGround_of_report ((posted_refl s).segmentCompletes k moved post) h (completion_config hc)

theorem sameGround_withGrant (s : State) (g : Option Grant) : SameGround s { s with grant := g } :=
  sameGround_of_posted (posted_refl s) rfl (fun _ => rfl)

theorem sameGround_completeAccess (s : State) (post : RunEndPost) : SameGround s (s.completeAccess post) := by
  unfold State.completeAccess
  split
  · exact sameGround_refl s
  · exact (sameGround_withGrant s none).trans (sameGround_complete _ _ _ _)
  · exact (sameGround_withGrant s none).trans (sameGround_segmentCompletes _ _ _ _)

theorem sameGround_countTick (s : State) : SameGround s s.countTick :=
  sameGround_of_posted (posted_refl s).countTick rfl (fun _ => rfl)

theorem sameGround_withDeferredOrder (s : State) (ds : List Deferred) : SameGround s { s with deferredOrder := ds } :=
  sameGround_of_posted (posted_refl s) rfl (fun _ => rfl)

theorem inBounds_applyDeferred (h : s.inBounds) (p : PortId) : (s.applyDeferred p).inBounds := by
  unfold State.applyDeferred
  split
  · exact inBounds_applyAndComplete p h _
  · exact inBounds_applyAndComplete p h _
  · exact h

theorem inBounds_applyWaiting (h : s.inBounds) (d : Deferred) : (s.applyWaiting d).inBounds := by
  cases d with
  | request p => exact inBounds_applyDeferred h p
  | tick => exact ((sameGround_countTick s).trans (sameGround_finishLapses _)).inBounds h

theorem inBounds_foldWaiting (h : s.inBounds) (ds : List Deferred) : (ds.foldl State.applyWaiting s).inBounds :=
  List.foldlRecOn (motive := State.inBounds) ds _ h (fun _ hu d _ => inBounds_applyWaiting hu d)

theorem inBounds_applyDeferredUpTo (h : s.inBounds) (p : PortId) : (s.applyDeferredUpTo p).inBounds :=
  inBounds_applyDeferred (inBounds_foldWaiting ((sameGround_withDeferredOrder s _).inBounds h) _) p

end Due

/-! ### Requests taken -/

section Requests

variable {s : State}

theorem sameGround_closeFrame (s : State) (p : PortId) (bits : Nat) : SameGround s (s.closeFrame p bits) :=
  sameGround_modPort_aside rfl rfl

theorem sameGround_showPending (s : State) (p : PortId) (tag : Byte) : SameGround s (s.showPending p tag) :=
  sameGround_modPort_aside rfl rfl

/-- A request comes into flight that does not wait for a grant. -/
theorem sameGround_setInFlight (s : State) (p : PortId) {x : InFlight} (hx : ∀ m, x ≠ .waiting m) :
    SameGround s (s.setInFlight p x) :=
  sameGround_modPort (fun _ _ hb => hb) (fun m hm => absurd (Option.some.inj hm) (hx m))

theorem deferral_not_waiting (g : Grant) (r : Request) (m : MemoryRequest) : deferral g r ≠ .waiting m := by
  unfold deferral
  split
  · split <;> exact InFlight.noConfusion
  · exact InFlight.noConfusion

theorem inBounds_takeRequest (h : s.inBounds) (p : PortId) (tag : Byte) (r : Request) :
    (s.takeRequest p tag r).inBounds := by
  have hs := (sameGround_showPending s p tag).inBounds h
  unfold State.takeRequest
  split
  · exact inBounds_applyAndComplete p hs r
  · next g _ => exact (sameGround_setInFlight _ p (deferral_not_waiting g r)).inBounds hs

/-- A request that comes to wait for its grant fits the array, if its target is ABSOLUTE (R9, R10). -/
theorem inBounds_setWaiting (h : s.inBounds) (p : PortId) {r : MemoryRequest} (hr : r.target.fitsAtTaking r.op.size = true) :
    (s.setInFlight p (.waiting r)).inBounds := by
  obtain ⟨hregion, hcursor, hchannel, hwaiting⟩ := h
  refine ⟨hregion, fun q c => ?_, hchannel, fun q t op => ?_⟩
  · rw [State.setInFlight, port_modPort]
    split
    · next hq => exact hcursor p c
    · exact hcursor q c
  · rw [State.setInFlight, port_modPort]
    split
    · rintro ⟨⟩
      exact hr
    · exact hwaiting q t op

theorem fits_of_checkAtTaking {t : TargetBytes} {op : Option MemoryOp} {r : MemoryRequest}
    (h : checkAtTaking t op = .ok r) : r.target.fitsAtTaking r.op.size = true := by
  unfold checkAtTaking at h
  split at h
  · split at h
    · next hf =>
      cases h
      exact hf
    · cases h
  · cases h

theorem inBounds_takeMemory (h : s.inBounds) (p : PortId) (tag : Byte) (target : TargetBytes) (op : Option MemoryOp) :
    (s.takeMemory p tag (checkAtTaking target op)).inBounds := by
  have hs := (sameGround_showPending s p tag).inBounds h
  unfold State.takeMemory
  split
  · exact (sameGround_complete _ p _ _).inBounds hs
  · next hr => exact inBounds_setWaiting hs p (fits_of_checkAtTaking hr)

end Requests

/-! ### The beginning of a grant -/

section Grants

variable {s t : State}

theorem sameGround_matchAll (s : State) (pr : Presentation) : SameGround s (s.matchAll pr) :=
  sameGround_of_triggers ((posted_refl s).matchAll pr) (matchAll_anchors s pr) (ChannelChanges.matchAll_triggers s pr)

/-- Notices are posted and watches changed, and nothing else. -/
theorem sameGround_aside (hp : Posted s t) (h : { t with watches := s.watches, ports := s.ports } = s) :
    SameGround s t := by
  have ha := congrArg State.anchors h
  have hk := congrArg State.channels h
  exact sameGround_of_posted hp ha (fun k => congrArg (fun v : Vector Channel 4 => v[k].config) hk)

theorem sameGround_blockAll (s : State) (writer : Actor) (addrs : List Nat) (address size : Nat) :
    SameGround s (s.blockAll writer addrs address size) :=
  sameGround_aside ((posted_refl s).blockAll writer addrs address size) (blockAll_spec s writer addrs address size).1

theorem sameGround_reportNullRef (s : State) (p : PortId) (r : MemoryRequest) : SameGround s (s.reportNullRef p r) := by
  unfold State.reportNullRef
  split
  · split
    · split
      · exact sameGround_refl s
      · exact sameGround_postTo s _ _
    · exact sameGround_refl s
    · exact sameGround_refl s
  · exact sameGround_refl s
  · exact sameGround_refl s

theorem sameGround_holdArray (s : State) (p : PortId) (code : ResultCode) (data : List Byte) :
    SameGround s (s.holdArray p code data) :=
  (sameGround_setInFlight s p (fun _ => InFlight.noConfusion)).trans (sameGround_withGrant _ _)

theorem sameGround_withArray (s : State) (m : Memory) : SameGround s { s with array := m } :=
  sameGround_of_posted (posted_refl s) rfl (fun _ => rfl)

theorem inBounds_storeMotion (h : s.inBounds) {p : PortId} {motion : Option (CursorId × Nat)}
    (hm : ∀ c o, motion = some (c, o) → ∃ b, (s.port p).cursor c = some b ∧ s.bindingInside ⟨b.anchor, o⟩) :
    (s.storeMotion p motion).inBounds := by
  cases motion with
  | none => exact h
  | some x =>
    obtain ⟨c, o⟩ := x
    obtain ⟨b, hb, hin⟩ := hm c o rfl
    have hs : s.storeMotion p (some (c, o)) = s.modPort p (fun q => q.setCursor c (some ⟨b.anchor, o⟩)) := by
      refine modPort_congr s p (fun q => q.setCursor c ((q.cursor c).map (fun b => ⟨b.anchor, o⟩))) _ ?_
      rw [hb]
      rfl
    rw [hs]
    refine inBounds_setCursor h ?_
    rintro x ⟨⟩
    exact hin

/-- The motion, the matching and the hold of the array that a performance ends with (R16). -/
theorem inBounds_performed (h : s.inBounds) {p : PortId} {motion : Option (CursorId × Nat)}
    (hm : ∀ c o, motion = some (c, o) → ∃ b, (s.port p).cursor c = some b ∧ s.bindingInside ⟨b.anchor, o⟩)
    (pr : Presentation) (code : ResultCode) (data : List Byte) :
    (((s.storeMotion p motion).matchAll pr).holdArray p code data).inBounds :=
  (sameGround_holdArray _ p code data).inBounds ((sameGround_matchAll _ pr).inBounds (inBounds_storeMotion h hm))

theorem inBounds_accessAt (h : s.inBounds) {p : PortId} {op : MemoryOp} {place : Place}
    (hm : ∀ c o, place.motion = some (c, o) → ∃ b, (s.port p).cursor c = some b ∧ s.bindingInside ⟨b.anchor, o⟩) :
    (s.accessAt p op place).inBounds := by
  unfold State.accessAt
  split
  · exact (sameGround_holdArray s p _ _).inBounds h
  · split
    · exact ((sameGround_blockAll s _ _ _ _).trans (sameGround_holdArray _ p _ _)).inBounds h
    · have ha : State.inBounds { s with array := (op.perform s.array place.addrs).array } :=
        (sameGround_withArray s _).inBounds h
      dsimp only
      exact inBounds_performed ha hm _ _ _

theorem sameGround_segmentAt (s : State) (k : ChannelId) : SameGround s (s.segmentAt k) := by
  unfold State.segmentAt
  dsimp only
  split
  · exact sameGround_withGrant s _
  · split
    · exact (sameGround_blockAll s _ _ _ _).trans (sameGround_withGrant _ _)
    · exact (((sameGround_withArray s _).trans (sameGround_matchAll _ _)).trans (sameGround_matchAll _ _)).trans
        (sameGround_withGrant _ _)

/-! The array keeps its listed form. -/

theorem wf_perform {m : Memory} {op : MemoryOp} {addrs : List Nat} (h : m.wf = true) (ha : inArray addrs = true) :
    (op.perform m addrs).array.wf = true := by
  cases op with
  | read size => exact h
  | write data => exact Memory.wf_writeAll h ha
  | exchange width expected new =>
    unfold MemoryOp.perform
    dsimp only
    split
    · exact Memory.wf_writeAll h ha
    · exact h
  | fetchAdd width addend => exact Memory.wf_writeAll h ha

theorem aside_array (h : { t with watches := s.watches, ports := s.ports } = s) : t.array = s.array := by
  have ha := congrArg State.array h
  exact ha

theorem listed_accessAt (h : s.arrayListed) (p : PortId) (op : MemoryOp) {place : Place}
    (ha : inArray place.addrs = true) : (s.accessAt p op place).arrayListed := by
  have hold : ∀ (u : State) (code : ResultCode) (data : List Byte), u.arrayListed →
      (u.holdArray p code data).arrayListed := fun _ _ _ hu => hu
  unfold State.accessAt
  split
  · exact hold _ _ _ h
  · split
    · refine hold _ _ _ ?_
      unfold State.arrayListed
      rwa [aside_array (blockAll_spec s _ _ _ _).1]
    · refine hold _ _ _ ?_
      unfold State.arrayListed
      rw [matchAll_array, storeMotion_array]
      exact wf_perform h ha

theorem listed_withGrant (h : s.arrayListed) (g : Option Grant) : State.arrayListed { s with grant := g } := h

theorem listed_segmentAt (h : s.arrayListed) {k : ChannelId} (ha : inArray (s.channel k).segmentDestination = true) :
    (s.segmentAt k).arrayListed := by
  unfold State.segmentAt
  dsimp only
  split
  · exact h
  · split
    · refine listed_withGrant ?_ _
      unfold State.arrayListed
      rwa [aside_array (blockAll_spec s _ _ _ _).1]
    · refine listed_withGrant ?_ _
      unfold State.arrayListed
      rw [matchAll_array, matchAll_array]
      exact Memory.wf_writeAll h ha

/-! The access that a grant begins exists. -/

/-- The bytes of a channel's next segment lie inside the array (R117, R123). -/
theorem segment_exists {e : Channel} (h : e.inside) :
    inArray e.segmentSource = true ∧ inArray e.segmentDestination = true := by
  obtain ⟨-, hsource, hdestination, -⟩ := h
  have hspan : ∀ start, start + e.config.length ≤ Config.arraySize →
      inArray (span (start + e.copied) e.segmentSize) = true := by
    intro start hs
    simp only [inArray, span, List.all_eq_true, List.mem_range'_1, decide_eq_true_eq]
    intro a ha
    have hn : e.segmentSize ≤ e.config.length - e.copied := Nat.min_le_right _ _
    omega
  exact ⟨hspan _ hsource, hspan _ hdestination⟩

theorem beginAccess_next (h : s.inBounds) (hl : s.arrayListed) {p : PortId} {r : MemoryRequest}
    (hi : (s.port p).inFlight = some (.waiting r)) : ∃ t, beginAccess p r s = .next t ∧ t.inBounds ∧ t.arrayListed := by
  unfold beginAccess
  cases hr : s.resolve p r with
  | error code =>
    refine ⟨_, rfl, ?_, ?_⟩
    · refine (sameGround_holdArray _ p code []).inBounds ?_
      split
      · exact (sameGround_reportNullRef s p r).inBounds h
      · exact h
    · have ha : (s.reportNullRef p r).array = s.array := by
        unfold State.reportNullRef
        split
        · split
          · split <;> rfl
          · rfl
          · rfl
        · rfl
        · rfl
      have hhold : ∀ u : State, (u.holdArray p code []).array = u.array := fun _ => rfl
      unfold State.arrayListed
      rw [hhold]
      split
      · rwa [ha]
      · exact hl
  | ok place =>
    have ha : inArray place.addrs = true := (resolved_exist h hi hr).1
    exact ⟨s.accessAt p r.op place, if_pos ha,
      inBounds_accessAt h (fun c o hm => motion_inside h hr hm), listed_accessAt hl p r.op ha⟩

theorem beginSegment_next (h : s.inBounds) (hl : s.arrayListed) (k : ChannelId) :
    ∃ t, beginSegment k s = .next t ∧ t.inBounds ∧ t.arrayListed := by
  obtain ⟨hs, hd⟩ := segment_exists (h.2.2.1 k)
  refine ⟨State.segmentAt { s with enginePointer := k + 1 } k, if_pos (by rw [hs, hd]; rfl), ?_,
    listed_segmentAt (s := { s with enginePointer := k + 1 }) hl hd⟩
  exact (sameGround_segmentAt { s with enginePointer := k + 1 } k).inBounds h

end Grants

/-! ### Power and device reset -/

section Device

variable {s t : State}

theorem reset_anchor (a : AnchorId) : State.reset.anchor a = Anchor.default := by simp [State.anchor, State.reset]

theorem reset_watch (w : WatchId) : State.reset.watch w = Watch.default := by simp [State.watch, State.reset]

theorem reset_channel (k : ChannelId) : State.reset.channel k = Channel.default := by
  simp [State.channel, State.reset]

theorem reset_port (p : PortId) : State.reset.port p = Port.default := by simp [State.port, State.reset]

theorem port_powerOn (s : State) (p : PortId) : s.powerOn.port p = (s.port p).powerOn :=
  tableMap_getElem Port.powerOn s.ports p.val p.isLt

theorem port_deviceReset (s : State) (p : PortId) : s.deviceReset.port p = (s.port p).deviceReset :=
  tableMap_getElem Port.deviceReset s.ports p.val p.isLt

/-- Nothing that reset leaves reaches a byte: no region, no bound cursor, no range and no request. -/
theorem inBounds_of_reset (ha : t.anchors = State.reset.anchors) (hk : t.channels = State.reset.channels)
    (hp : ∀ p, (t.port p).cursors = Port.default.cursors ∧ (t.port p).inFlight = none) : t.inBounds := by
  refine ⟨fun a g hg => ?_, fun p c b hb => ?_, fun k => ?_, fun p x op hi => ?_⟩
  · have hr : t.anchor a = Anchor.default :=
      (congrArg (fun v : Vector Anchor 32 => v[a]) ha).trans (reset_anchor a)
    rw [hr] at hg
    cases hg
  · have hc : Port.default.cursor c = none := by fin_cases c <;> rfl
    unfold Port.cursor at hb hc
    rw [(hp p).1, hc] at hb
    cases hb
  · have hc : t.channel k = Channel.default :=
      (congrArg (fun v : Vector Channel 4 => v[k]) hk).trans (reset_channel k)
    rw [hc]
    exact default_inside
  · rw [(hp p).2] at hi
    cases hi

theorem inBounds_powerOn (s : State) : s.powerOn.inBounds :=
  inBounds_of_reset rfl rfl (fun p => by rw [port_powerOn]; exact ⟨rfl, rfl⟩)

theorem inBounds_deviceReset (s : State) : s.deviceReset.inBounds :=
  inBounds_of_reset rfl rfl (fun p => by rw [port_deviceReset]; exact ⟨rfl, rfl⟩)

end Device

/-! ### Every stage -/

/-- All that an access can reach lies inside the array, which is in its listed form. -/
def Bounded (s : State) : Prop := s.inBounds ∧ s.arrayListed

section Steps

variable {s t : State}

theorem inBounds_stage (hst : Stage s t) (h : s.inBounds) : t.inBounds := by
  cases hst with
  | finishLapses => exact (sameGround_finishLapses s).inBounds h
  | nextLapse => exact (sameGround_nextLapse s).inBounds h
  | postLate => exact (sameGround_postLate s).inBounds h
  | appliesWaiting hg => exact inBounds_foldWaiting ((sameGround_withDeferredOrder s []).inBounds h) _
  | completes post => exact (sameGround_completeAccess s post).inBounds h
  | appliesUpTo hp => exact inBounds_applyDeferredUpTo ((sameGround_completeAccess s _).inBounds h) _
  | appliesFirst hp =>
    exact inBounds_applyDeferred
      (((sameGround_completeAccess s _).trans (sameGround_withDeferredOrder _ _)).inBounds h) _
  | counts ht => exact (sameGround_countTick s).inBounds h
  | tickWaits ht => exact (sameGround_withDeferredOrder s _).inBounds h
  | frameStarts p => exact (sameGround_modPort_aside rfl rfl).inBounds h
  | wakes hm => exact (tame_setMode _ s _).bounds h
  | @dark p f hf => exact (sameGround_modPort_aside (p := p) (f := fun q => { q with frame := f }) rfl rfl).inBounds h
  | frameEnds p bits => exact (sameGround_closeFrame s p bits).inBounds h
  | lengthFault hl bits =>
    exact ((sameGround_closeFrame s _ bits).trans (sameGround_modPort_aside rfl rfl)).inBounds h
  | busy hl bits => exact ((sameGround_closeFrame s _ bits).trans (sameGround_modPort_aside rfl rfl)).inBounds h
  | answers hl hi bits tag code =>
    exact (((sameGround_closeFrame s _ bits).trans (sameGround_showPending _ _ tag)).trans
      (sameGround_complete _ _ code [])).inBounds h
  | takesRequest hl hi bits tag r => exact inBounds_takeRequest ((sameGround_closeFrame s _ bits).inBounds h) _ tag r
  | takesMemory hl hi bits tag target op =>
    exact inBounds_takeMemory ((sameGround_closeFrame s _ bits).inBounds h) _ tag target op

theorem bounded_stage (hst : Stage s t) (h : Bounded s) : Bounded t := by
  refine ⟨inBounds_stage hst h.1, ?_⟩
  unfold State.arrayListed
  rw [(StandingFields.stands_stage hst).2]
  exact h.2

theorem Bounded.postLate (h : Bounded s) : Bounded s.postLate := bounded_stage .postLate h

theorem bounded_power (hp : Power s t) (h : Bounded s) : Bounded t := by
  cases hp with
  | rises => exact ⟨inBounds_powerOn s, rfl⟩
  | falls => exact ⟨inBounds_powerOn s, rfl⟩
  | fills hs => exact ⟨h.1, rfl⟩
  | asserts => exact ⟨inBounds_deviceReset s, h.2⟩
  | assertsDark hs => exact h
  | releasesDark hs => exact h
  | releasesFilled hs hf => exact h
  | releasesUnfilled hf => exact h

theorem bounded_stages (hst : Stages s t) (h : Bounded s) : Bounded t := hst.keeps (fun _ _ => bounded_stage) h

/-! ### Every command -/

/-- A grant in which everything lies inside the array does not fault (R1). -/
theorem grantMemory_next (h : Bounded s) {after : State → State} (ha : ∀ u, Bounded u → Bounded (after u)) :
    ∃ t, grantMemory after s = .next t ∧ Bounded t := by
  unfold grantMemory
  cases hc : s.memoryChoice with
  | none => exact ⟨_, rfl, h.postLate⟩
  | some x =>
    obtain ⟨p, r⟩ := x
    have hi : (s.port p).inFlight = some (.waiting r) := by
      exact PortChanges.memoryChoice_inFlight hc
    obtain ⟨u, hu, hb⟩ := beginAccess_next (s := s.advancePointer ⟨p.val, by omega⟩) h.1 h.2 hi
    simp only [hu, andThen]
    exact ⟨_, rfl, ha _ (Bounded.postLate hb)⟩

theorem grantSegment_next (h : Bounded s) {after : State → State} (ha : ∀ u, Bounded u → Bounded (after u)) :
    ∃ t, grantSegment after s = .next t ∧ Bounded t := by
  unfold grantSegment
  cases hc : s.segmentChoice with
  | none => exact ⟨_, rfl, h.postLate⟩
  | some k =>
    obtain ⟨u, hu, hb⟩ := beginSegment_next (s := s.advancePointer 4) h.1 h.2 k
    simp only [hu, andThen]
    exact ⟨_, rfl, ha _ (Bounded.postLate hb)⟩

theorem Bounded.completeAccess (h : Bounded s) (post : RunEndPost) : Bounded (s.completeAccess post) :=
  bounded_stage (.completes post) h

theorem memoryGrant_next (h : Bounded s) (span : GrantSpan) : ∃ t, execMemoryGrant span s = .next t ∧ Bounded t := by
  have hw : Bounded s.clearWay := bounded_stages (stages_clearWay s) h
  cases span with
  | whole => exact grantMemory_next hw (fun _ hu => hu.completeAccess _)
  | begins => exact grantMemory_next hw (fun _ hu => hu)
  | ends =>
    refine ⟨_, rfl, ?_⟩
    have hs : Bounded s.settle := bounded_stages (stages_settle s) h
    unfold State.endMemory
    split
    · exact hs.completeAccess _
    · exact hs

theorem segmentGrant_next (h : Bounded s) (span : SegmentSpan) : ∃ t, execSegmentGrant span s = .next t ∧ Bounded t := by
  have hw : Bounded s.clearWay := bounded_stages (stages_clearWay s) h
  cases span with
  | whole post => exact grantSegment_next hw (fun _ hu => hu.completeAccess _)
  | begins => exact grantSegment_next hw (fun _ hu => hu)
  | ends post =>
    refine ⟨_, rfl, ?_⟩
    have hs : Bounded s.settle := bounded_stages (stages_settle s) h
    unfold State.endSegment
    split
    · exact hs.completeAccess _
    · exact hs

theorem abortAfterSegment_next (s : State) (p : PortId) : ∃ t, execAbortAfterSegment p s = .next t := by
  unfold execAbortAfterSegment
  split <;> exact ⟨_, rfl⟩

theorem deferredRequestApply_next (s : State) (p : PortId) : ∃ t, execDeferredRequestApply p s = .next t := by
  unfold execDeferredRequestApply
  split <;> exact ⟨_, rfl⟩

/-- Only a grant can fault. -/
theorem quiet_next {i : Instr} (hq : quiet i = true) (s : State) : ∃ t, exec i s = .next t := by
  cases i
  case abortAfterSegment p => exact abortAfterSegment_next s p
  case deferredRequestApply p => exact deferredRequestApply_next s p
  case powerOnReset | fillEnd | nresetAssertion | nresetRelease | supplyLoss | memoryGrant | segmentGrant => cases hq
  all_goals exact ⟨_, rfl⟩

theorem bounded_of_power (hp : t = s ∨ Power s t) (h : Bounded s) : Bounded t := by
  obtain rfl | hp := hp
  · exact h
  · exact bounded_power hp h

theorem exec_next (h : Bounded s) (i : Instr) : ∃ t, exec i s = .next t ∧ Bounded t := by
  cases hq : quiet i with
  | true =>
    obtain ⟨t, ht⟩ := quiet_next hq s
    exact ⟨t, ht, bounded_stages (exec_stages hq ht) h⟩
  | false =>
    cases i
    case memoryGrant span => exact memoryGrant_next h span
    case segmentGrant span => exact segmentGrant_next h span
    case powerOnReset => exact ⟨_, rfl, bounded_power .rises h⟩
    case supplyLoss => exact ⟨_, rfl, bounded_power .falls h⟩
    case fillEnd => exact ⟨_, rfl, bounded_of_power (power_fillEnd rfl) h⟩
    case nresetAssertion => exact ⟨_, rfl, bounded_of_power (power_nresetAssertion rfl) h⟩
    case nresetRelease => exact ⟨_, rfl, bounded_of_power (power_nresetRelease rfl) h⟩
    all_goals cases hq

/-- Settles O53: every stage keeps the bounds, and within them the access that a grant begins exists, so that no command
faults. -/
theorem stepStaysInBounds : Obligations.StepStaysInBounds := by
  intro s hs hl
  unfold step
  split
  · exact ⟨s, rfl, hs, hl⟩
  · next c rest _ => exact exec_next (s := { s with pending := rest }) ⟨hs, hl⟩ c

end Steps

end Sys2Proof.StepBounds
end

section
/-! SUPPORT. Power and device reset (1.1, R2 to R4, R83): the reset values, the conditions that hold right after reset,
the events of the board, and frames without supply. -/

namespace Sys2Proof.PowerEvents

open Sys2Proof Sys2Proof.Machine Sys2Proof.Claims Sys2Proof.StepBounds

/-! ### Reset values -/

theorem default_cursor (c : CursorId) : Port.default.cursor c = none := by
  fin_cases c <;> rfl

/-- Settles O49: each table at reset holds its default entry, field by field. -/
theorem resetValues : Obligations.ResetValues := by
  refine ⟨rfl, rfl, rfl, rfl, rfl, rfl, rfl, rfl, rfl, rfl, reset_anchor, reset_watch, reset_channel, fun p => ?_⟩
  rw [reset_port]
  exact ⟨rfl, rfl, rfl, rfl, rfl, rfl, rfl, rfl, rfl, rfl, rfl, rfl, default_cursor⟩

/-! ### The conditions right after reset -/

theorem reset_inBounds : State.reset.inBounds :=
  inBounds_of_reset rfl rfl (fun p => by rw [reset_port]; exact ⟨rfl, rfl⟩)

theorem default_runSound : Channel.default.runSound := by decide

theorem default_budgetSound : Channel.default.budgetSound :=
  ⟨fun _ => Nat.zero_le _, fun _ => rfl, fun _ => rfl⟩

theorem reset_runsSound : State.reset.runsSound := by
  refine ⟨fun k => ?_, fun k moved hg => by cases hg⟩
  rw [reset_channel]
  exact default_runSound

theorem reset_budgetsSound : State.reset.budgetsSound := by
  intro k
  rw [reset_channel]
  exact default_budgetSound

theorem reset_quietsSound : State.reset.quietsSound := (QuietTiming.calm_of_reset rfl rfl).quietsSound

/-- What holds of a port at its power-on values holds of every port right after reset. -/
theorem reset_ports {P : Port → Prop} (h : P Port.default) (p : PortId) : P (State.reset.port p) := by
  rw [reset_port]
  exact h

theorem default_attentionExact : Port.default.attentionExact :=
  ⟨Bool.noConfusion, fun ⟨hm, _⟩ => PortMode.noConfusion hm⟩

theorem default_dozeSound : Port.default.dozeSound := PortMode.noConfusion

theorem default_levelsSound : Port.default.levelsSound :=
  NoticeUnit.levelsSound_first rfl rfl rfl

theorem reset_detachedClean : State.reset.detachedClean :=
  (DetachedPorts.detachedClean_iff _).mpr
    (DetachedPorts.clean_of_reset rfl rfl rfl (fun p => ⟨none, none, reset_port p⟩))

theorem reset_quietWhenNotReady : State.reset.quietWhenNotReady :=
  fun _ => ⟨rfl, rfl, rfl, rfl, fun p => by
    rw [reset_port]
    exact ⟨rfl, rfl, rfl, rfl, rfl, fun f hf => by cases hf⟩⟩

theorem reset_grantSound : State.reset.grantSound := by
  intro p
  rw [reset_port]
  refine iff_of_false (fun h => by cases h) ?_
  rintro ⟨code, data, h⟩
  cases h

theorem reset_waitsSound : State.reset.waitsSound := by
  refine ⟨fun p => ?_, fun p => Nat.zero_le _, fun h => absurd rfl h⟩
  rw [reset_port]
  exact iff_of_false List.not_mem_nil Bool.false_ne_true

/-- Settles O52: the reset state meets each condition, table by table and port by port. -/
theorem resetIsSafe : Obligations.ResetIsSafe :=
  ⟨Memory.wf_reset, reset_inBounds, reset_runsSound, reset_budgetsSound, reset_quietsSound,
    reset_ports (P := fun q => q.queue.length ≤ Config.queueCapacity) (Nat.zero_le _),
    reset_ports (P := Port.folded) List.Pairwise.nil, reset_ports default_attentionExact,
    reset_ports default_dozeSound, reset_ports default_levelsSound, reset_detachedClean, Bool.noConfusion,
    reset_quietWhenNotReady, reset_grantSound, reset_waitsSound⟩

/-! ### Power -/

section Events

variable (s : State)

/-- A port at power-on is at its reset values, with a frame in progress dark (log entry 25). -/
theorem powerOn_eq_reset (p : PortId) :
    s.powerOn.port p = { State.reset.port p with frame := (s.port p).frame.map (fun _ => ⟨[], false, true⟩) } := by
  rw [port_powerOn, reset_port]
  rfl

theorem fillEnd_fills (hs : s.supply = true) (hf : s.filling = true) :
    exec .fillEnd s =
      .next { s with fill := .filled, filling := false, array := [], ticking := !s.nReset } := by
  have h : (s.supply && s.filling) = true := by rw [hs, hf]; rfl
  exact congrArg Host.Outcome.next (if_pos h)

theorem fillEnd_idle (h : s.supply = false ∨ s.filling = false) : exec .fillEnd s = .next s := by
  refine congrArg Host.Outcome.next (if_neg ?_)
  rw [Bool.and_eq_true]
  rintro ⟨hs, hf⟩
  obtain h | h := h
  · cases hs.symm.trans h
  · cases hf.symm.trans h

/-! ### Frames without supply (log entry 25) -/

/-- The chip select of a port released without supply. -/
theorem frameEnd_dark (hs : s.supply = false) (p : PortId) (bits : Nat) (tag : Byte) (fits : Bool) (kind : FrameKind)
    (take : State → State) :
    frameEnd p bits tag fits kind take s = .next (s.modPort p (fun q => { q with frame := none })) := by
  unfold frameEnd
  rw [hs]
  rfl

theorem frameStart_dark (hs : s.supply = false) (p : PortId) :
    exec (.frameStart p) s = .next (s.modPort p (fun q => { q with frame := some ⟨[], false, true⟩ })) := by
  have h : execFrameStart p s = .next (if s.supply then s.settle.startFrame p
      else s.darkFrame p (some OpenFrame.dark)) := rfl
  refine h.trans ?_
  rw [hs]
  rfl

end Events

/-- Settles O50: power-on and loss of supply put every block at its reset values, a fill under way ends, and without
supply every frame end is the release of a chip select. -/
theorem powerAndFill : Obligations.PowerAndFill := by
  refine fun s => ⟨⟨s.powerOn, rfl, rfl, powerOn_eq_reset s⟩, fun hs hf => ?fill, fillEnd_idle s,
    ⟨{ s.powerOn with supply := false, filling := false }, rfl, rfl, powerOn_eq_reset s⟩,
    fun hs p => ⟨frameStart_dark s hs p, fun i f code params hi hp => ?request,
      fun f code hp => hp ▸ frameEnd_dark s hs _ _ _ _ _ _, fun bits => frameEnd_dark s hs _ _ _ _ _ _,
      frameEnd_dark s hs _ _ _ _ _ _⟩⟩
  case fill =>
    refine ⟨_, fillEnd_fills s hs hf, fun a => rfl, rfl, rfl, ?_, rfl, rfl⟩
    simp [State.ready, hs]
  case request =>
    obtain ⟨fits, kind, take, he⟩ := DueWork.exec_of_requestBytes hi
    rw [he, ← hp]
    exact frameEnd_dark s hs _ _ _ _ _ _

/-! ### Device reset -/

section DeviceReset

variable {s : State}

/-- A port at an nRESET assertion is at its reset values, with a frame in progress abandoned and the record of what SDO
carried kept (log entry 14). -/
theorem deviceReset_eq_reset (s : State) (p : PortId) :
    s.deviceReset.port p =
      { State.reset.port p with
        frame := (s.port p).frame.map (fun f => { f with abandoned := true })
        shifted := (s.port p).shifted } := by
  rw [port_deviceReset, reset_port]
  rfl

theorem nresetAssertion_resets (hs : s.supply = true) (hn : s.nReset = false) :
    exec .nresetAssertion s = .next { s.deviceReset with nReset := true } := by
  have h : execNresetAssertion s = .next (if s.nReset then s
      else if s.supply then { s.deviceReset with nReset := true } else { s with nReset := true }) := rfl
  refine h.trans ?_
  rw [hn, if_neg Bool.false_ne_true, if_pos hs]

theorem nresetAssertion_again (hn : s.nReset = true) : exec .nresetAssertion s = .next s :=
  congrArg Host.Outcome.next (if_pos hn)

theorem nresetRelease_again (hn : s.nReset = false) : exec .nresetRelease s = .next s :=
  congrArg Host.Outcome.next (if_pos (by rw [hn]; rfl))

theorem nresetRelease_eq (hs : s.supply = true) (hn : s.nReset = true) :
    exec .nresetRelease s = .next (if s.fill = .filled then { s with nReset := false, ticking := true }
      else { s with nReset := false, filling := true }) := by
  refine congrArg Host.Outcome.next ?_
  rw [if_neg (by rw [hn]; decide), if_neg (by rw [hs]; decide)]

end DeviceReset

/-- Settles O51: an assertion puts every block but the array at its reset values, and a release goes on from the fill
state. -/
theorem deviceReset : Obligations.DeviceReset := by
  refine fun s hs => ⟨fun hn => ⟨_, nresetAssertion_resets hs hn, ?notReady, deviceReset_eq_reset s, ?fields⟩,
    fun hn hf => ⟨?resumes, ?ready⟩, fun hn hf => ⟨?fillsAgain, ?unfilled⟩, nresetAssertion_again, nresetRelease_again⟩
  case notReady => simp [State.ready]
  case fields => exact congrArg (fun b => { State.reset with
    supply := b, nReset := true, filling := false, fill := s.fill, array := s.array, pending := s.pending }) hs
  case resumes => rw [nresetRelease_eq hs hn, if_pos hf]
  case ready => simp [State.ready, hs, hf]
  case fillsAgain => rw [nresetRelease_eq hs hn, if_neg (by rw [hf]; decide)]
  case unfilled =>
    have h : (FillState.notFilled == FillState.filled) = false := rfl
    simp [State.ready, hf, h]

end Sys2Proof.PowerEvents
end

section
/-! SUPPORT. While READY is clear nothing runs (R4, R83, R163): the part at rest, and the time base. -/

namespace Sys2Proof.NotReady

open Sys2Proof Sys2Proof.Machine Sys2Proof.Claims Sys2Proof.CommandStages Sys2Proof.StandingFields Sys2Proof.StepBounds

/-! ### The time base (R83) -/

section Ticking

variable {s t : State}

theorem ready_iff (s : State) : s.ready = true ↔ s.supply = true ∧ s.fill = .filled ∧ s.nReset = false := by
  have hf : (s.fill == .filled) = true ↔ s.fill = .filled := by cases s.fill <;> decide
  simp only [State.ready, Bool.and_eq_true, hf, Bool.not_eq_true', and_assoc]

theorem not_ready_of_dark (h : s.supply = false) : ¬ s.ready = true := by
  rw [ready_iff, h]
  exact fun hr => Bool.noConfusion hr.1

theorem not_ready_of_unfilled (h : s.fill ≠ .filled) : ¬ s.ready = true := by
  rw [ready_iff]
  exact fun hr => h hr.2.1

theorem not_ready_of_nReset (h : s.nReset = true) : ¬ s.ready = true := by
  rw [ready_iff, h]
  exact fun hr => Bool.noConfusion hr.2.2

theorem ticksWhenReady_of_board (hb : board t = board s) (h : s.ticksWhenReady) : t.ticksWhenReady := by
  have ht : t.ticking = s.ticking := congrArg Board.ticking hb
  unfold State.ticksWhenReady
  rw [ht, Stands.ready hb]
  exact h

theorem ticksWhenReady_power (hp : Power s t) (h : s.ticksWhenReady) : t.ticksWhenReady := by
  cases hp with
  | rises => exact Bool.noConfusion
  | falls => exact Bool.noConfusion
  | fills hs => exact fun hn => (ready_iff _).mpr ⟨hs, rfl, by simpa using hn⟩
  | asserts => exact Bool.noConfusion
  | assertsDark hs => exact fun ht => absurd (h ht) (not_ready_of_dark hs)
  | releasesDark hs => exact fun ht => absurd (h ht) (not_ready_of_dark hs)
  | releasesFilled hs hf => exact fun _ => (ready_iff _).mpr ⟨hs, hf, rfl⟩
  | releasesUnfilled hf => exact fun ht => absurd (h ht) (not_ready_of_unfilled hf)

theorem ticksWhenReady_act (ha : Act s t) (h : s.ticksWhenReady) : t.ticksWhenReady := by
  cases ha with
  | stage hst => exact ticksWhenReady_of_board (stands_stage hst).1 h
  | begins hb => exact ticksWhenReady_of_board (board_begins hb) h
  | power hp => exact ticksWhenReady_power hp h

end Ticking

/-! ### The part at rest (R163) -/

/-- A port at rest: DETACHED, its slot NONE, its flags clear, and no live frame. -/
def PortRests (q : Port) : Prop :=
  q.mode = .detached ∧ q.slot = Slot.none ∧ q.inFlight = none ∧ q.busyRefused = false ∧ q.frameFault = false ∧
    ∀ f ∈ q.frame, f.ready = false ∨ f.abandoned = true

/-- Nothing holds the array, nothing is due, and every port is at rest. -/
structure Rests (s : State) : Prop where
  grant : s.grant = none
  lapses : s.lapsesDue = []
  late : s.lateNotice = none
  order : s.deferredOrder = []
  port : ∀ p, PortRests (s.port p)

theorem quietWhenNotReady_iff (s : State) : s.quietWhenNotReady ↔ (s.ready = false → Rests s) :=
  ⟨fun h hr => let ⟨hg, hl, hn, hd, hp⟩ := h hr; ⟨hg, hl, hn, hd, hp⟩,
    fun h hr => let ⟨hg, hl, hn, hd, hp⟩ := h hr; ⟨hg, hl, hn, hd, hp⟩⟩

section Rest

variable {s t : State}

theorem PortRests.not_live {q : Port} (h : PortRests q) : ¬ Live q := by
  obtain ⟨-, -, -, -, -, hf⟩ := h
  rintro ⟨o, ho, hr, ha⟩
  obtain hn | hn := hf o ho
  · cases hr.symm.trans hn
  · cases ha.symm.trans hn

theorem PortRests.inFlight {q : Port} (h : PortRests q) : q.inFlight = none := h.2.2.1

theorem Rests.modPort (h : Rests s) {p : PortId} {f : Port → Port} (hf : PortRests (f (s.port p))) :
    Rests (s.modPort p f) := by
  refine ⟨h.grant, h.lapses, h.late, h.order, fun q => ?_⟩
  rw [port_modPort]
  split
  · exact hf
  · exact h.port q

/-- Another frame, or none, at a port at rest. -/
theorem Rests.withFrame (h : Rests s) (p : PortId) {f : Option OpenFrame}
    (hf : ∀ o ∈ f, o.ready = false ∨ o.abandoned = true) : Rests (s.modPort p (fun q => { q with frame := f })) := by
  obtain ⟨hm, hs, hi, hb, hff, -⟩ := h.port p
  exact h.modPort ⟨hm, hs, hi, hb, hff, hf⟩

/-- No stage of a command finds anything to do but the frames of the ports (R163). -/
theorem rests_stage (hst : Stage s t) (hr : s.ready = false) (ht : s.ticksWhenReady) (h : Rests s) : Rests t := by
  have hticking : ¬ s.ticking = true := fun hc => Bool.eq_false_iff.mp hr (ht hc)
  cases hst with
  | finishLapses => rwa [finishLapses_none h.lapses]
  | nextLapse =>
    have hn : s.nextLapse = s := by simp only [State.nextLapse, h.lapses]
    rwa [hn]
  | postLate => rwa [postLate_none h.late]
  | appliesWaiting hg => rwa [applyAllDeferred_none h.order]
  | completes post =>
    have hc : s.completeAccess post = s := by simp only [State.completeAccess, h.grant]
    rwa [hc]
  | @appliesUpTo p r hp => cases (h.port p).inFlight.symm.trans hp
  | @appliesFirst p k hp => cases (h.port p).inFlight.symm.trans hp
  | counts hc => exact absurd hc hticking
  | tickWaits hc => exact absurd hc hticking
  | frameStarts p => exact h.withFrame p (fun o ho => by cases ho; exact .inl hr)
  | @wakes p hm => cases (h.port p).1.symm.trans hm
  | dark p hf => exact h.withFrame p (fun o ho => .inr (hf o ho))
  | frameEnds p bits =>
    obtain ⟨hm, hs, hi, hb, hff, -⟩ := h.port p
    exact h.modPort ⟨hm, hs, hi, hb, hff, fun o ho => by cases ho⟩
  | @lengthFault p hl => exact absurd hl (h.port p).not_live
  | @busy p hl => exact absurd hl (h.port p).not_live
  | @answers p hl => exact absurd hl (h.port p).not_live
  | @takesRequest p hl => exact absurd hl (h.port p).not_live
  | @takesMemory p hl => exact absurd hl (h.port p).not_live

/-- The arbiter grants nothing while the part is not ready, and nothing while a grant holds the array (R6). -/
theorem arbiterChoice_free {r : Requester} (hr : s.arbiterChoice = some r) : s.ready = true ∧ s.grant = none := by
  unfold State.arbiterChoice State.arrayFree at hr
  split at hr
  · next h =>
    obtain ⟨hready, hg⟩ := Bool.and_eq_true_iff.mp h
    exact ⟨hready, Option.isNone_iff_eq_none.mp hg⟩
  · cases hr

theorem memoryChoice_arbiter {p : PortId} {m : MemoryRequest} (hc : s.memoryChoice = some (p, m)) :
    ∃ r, s.arbiterChoice = some r := by
  unfold State.memoryChoice at hc
  split at hc
  · cases hc
  · next hr => exact ⟨_, hr⟩

theorem segmentChoice_arbiter {k : ChannelId} (hc : s.segmentChoice = some k) : ∃ r, s.arbiterChoice = some r := by
  unfold State.segmentChoice at hc
  split at hc
  · cases hc
  · next hr => exact ⟨_, hr⟩

theorem begins_free (hb : Begins s t) : s.ready = true ∧ s.grant = none := by
  cases hb with
  | access hc =>
    obtain ⟨r, hr⟩ := memoryChoice_arbiter hc
    exact arbiterChoice_free hr
  | segment hc =>
    obtain ⟨r, hr⟩ := segmentChoice_arbiter hc
    exact arbiterChoice_free hr

/-- A port at its reset values with no live frame is at rest. -/
theorem portRests_default {f : Option OpenFrame} (o : Option ShiftedOut) (hf : ∀ x ∈ f, x.abandoned = true) :
    PortRests { Port.default with frame := f, shifted := o } :=
  ⟨rfl, rfl, rfl, rfl, rfl, fun x hx => .inr (hf x hx)⟩

theorem abandoned_of_map {f : Option OpenFrame} {g : OpenFrame → OpenFrame} (hg : ∀ o, (g o).abandoned = true) :
    ∀ x ∈ f.map g, x.abandoned = true := by
  intro x hx
  obtain ⟨o, -, rfl⟩ := Option.mem_map.mp hx
  exact hg o

theorem rests_powerOn (s : State) : Rests s.powerOn :=
  ⟨rfl, rfl, rfl, rfl, fun p => by
    rw [port_powerOn]
    exact portRests_default none (abandoned_of_map (fun _ => rfl))⟩

theorem rests_deviceReset (s : State) : Rests s.deviceReset :=
  ⟨rfl, rfl, rfl, rfl, fun p => by
    rw [port_deviceReset]
    exact portRests_default _ (abandoned_of_map (fun _ => rfl))⟩

/-- The board's part and the array apart, two states at rest. -/
theorem Rests.congr (h : Rests s) (hg : t.grant = s.grant) (hl : t.lapsesDue = s.lapsesDue)
    (hn : t.lateNotice = s.lateNotice) (ho : t.deferredOrder = s.deferredOrder) (hp : t.ports = s.ports) : Rests t :=
  ⟨hg.trans h.grant, hl.trans h.lapses, hn.trans h.late, ho.trans h.order, fun p => by
    have hq : t.port p = s.port p := congrArg (fun v : Vector Port 4 => v[p]) hp
    rw [hq]
    exact h.port p⟩

theorem rests_power (hp : Power s t) (h : s.ready = false → Rests s) (hr : t.ready = false) : Rests t := by
  have hclear : ¬ s.ready = true → Rests s := fun hn => h (Bool.eq_false_iff.mpr hn)
  cases hp with
  | rises => exact rests_powerOn s
  | falls => exact (rests_powerOn s).congr rfl rfl rfl rfl rfl
  | fills hs =>
    refine (hclear (not_ready_of_nReset ?_)).congr rfl rfl rfl rfl rfl
    by_contra hn
    exact Bool.eq_false_iff.mp hr ((ready_iff _).mpr ⟨hs, rfl, Bool.eq_false_iff.mpr hn⟩)
  | asserts => exact (rests_deviceReset s).congr rfl rfl rfl rfl rfl
  | assertsDark hs => exact (hclear (not_ready_of_dark hs)).congr rfl rfl rfl rfl rfl
  | releasesDark hs => exact (hclear (not_ready_of_dark hs)).congr rfl rfl rfl rfl rfl
  | releasesFilled hs hf =>
    exact absurd ((ready_iff { s with nReset := false, ticking := true }).mpr ⟨hs, hf, rfl⟩) (Bool.eq_false_iff.mp hr)
  | releasesUnfilled hf => exact (hclear (not_ready_of_unfilled hf)).congr rfl rfl rfl rfl rfl

/-- While READY is clear the part is at rest, and the time base is HALTED. -/
def RestsTillReady (s : State) : Prop := (s.ready = false → Rests s) ∧ s.ticksWhenReady

theorem restsTillReady_act (ha : Act s t) (h : RestsTillReady s) : RestsTillReady t := by
  refine ⟨fun hr => ?_, ticksWhenReady_act ha h.2⟩
  cases ha with
  | stage hst =>
    have hs : s.ready = false := (Stands.ready (stands_stage hst).1).symm.trans hr
    exact rests_stage hst hs h.2 (h.1 hs)
  | begins hb =>
    have hs : s.ready = false := (Stands.ready (board_begins hb)).symm.trans hr
    cases hs.symm.trans (begins_free hb).1
  | power hp => exact rests_power hp h.1 hr

theorem quietWhenNotReady_step (hq : s.quietWhenNotReady) (ht : s.ticksWhenReady) (he : step s = .next t) :
    t.quietWhenNotReady := by
  refine (quietWhenNotReady_iff t).mpr (step_keeps (fun _ _ => restsTillReady_act) (fun u is hu => ?_)
    ⟨(quietWhenNotReady_iff s).mp hq, ht⟩ he).1
  exact ⟨fun hr => (hu.1 hr).congr rfl rfl rfl rfl rfl, hu.2⟩

theorem ticksWhenReady_step (ht : s.ticksWhenReady) (he : step s = .next t) : t.ticksWhenReady :=
  step_keeps (fun _ _ => ticksWhenReady_act) (fun _ _ h => h) ht he

end Rest

end Sys2Proof.NotReady
end

section
/-! SUPPORT. A grant and the request it serves, and the order of what waits for an access completion (R5, R7, R55, R160):
every stage keeps them; the statement about a part that is not ready and about what waits. -/

namespace Sys2Proof.WaitingOrder

open Sys2Proof Sys2Proof.Machine Sys2Proof.Claims Sys2Proof.RequestEffects Sys2Proof.DueWork Sys2Proof.Posting Sys2Proof.CommandStages
  Sys2Proof.StepBounds Sys2Proof.InsideArray Sys2Proof.NotReady

/-! ### What leaves the requests in flight -/

/-- The requests in flight stand, with the grant and the order of what waits, and no run-end notice comes to be kept. -/
structure Undisturbed (s t : State) : Prop where
  inFlight : ∀ p, (t.port p).inFlight = (s.port p).inFlight
  grant : t.grant = s.grant
  order : t.deferredOrder = s.deferredOrder
  late : s.lateNotice = none → t.lateNotice = none

section Undisturbed

variable {s t : State}

theorem undisturbed_finishLapses (s : State) : Undisturbed s s.finishLapses where
  inFlight := (posted_refl s).finishLapses.inFlight
  grant := congrArg Surroundings.grant (finishLapses_around s)
  order := congrArg Surroundings.deferredOrder (finishLapses_around s)
  late h := (finishLapses_lateNotice s).trans h

theorem undisturbed_nextLapse (s : State) : Undisturbed s s.nextLapse := by
  cases h : s.lapsesDue with
  | nil =>
    have hn : s.nextLapse = s := by simp only [State.nextLapse, h]
    rw [hn]
    exact ⟨fun _ => rfl, rfl, rfl, id⟩
  | cons w rest =>
    have hn : s.nextLapse = { s.lapseOf w with lapsesDue := rest } := by simp only [State.nextLapse, h]
    rw [hn]
    exact ⟨((posted_refl s).lapseOf w).inFlight, (blind_lapseOf w).grant s, (blind_lapseOf w).deferredOrder s,
      fun hl => (lapseOf_lateNotice s w).trans hl⟩

theorem undisturbed_postLate (s : State) : Undisturbed s s.postLate :=
  ⟨(posted_refl s).postLate.inFlight, postLate_grant s, postLate_deferredOrder s, fun _ => postLate_lateNotice s⟩

theorem undisturbed_countTick (s : State) : Undisturbed s s.countTick := ⟨fun _ => rfl, rfl, rfl, id⟩

theorem undisturbed_modPort {p : PortId} {f : Port → Port} (hf : (f (s.port p)).inFlight = (s.port p).inFlight) :
    Undisturbed s (s.modPort p f) := ⟨inFlight_modPort hf, rfl, rfl, id⟩

theorem Undisturbed.trans {u : State} (h : Undisturbed s t) (g : Undisturbed t u) : Undisturbed s u :=
  ⟨fun p => (g.inFlight p).trans (h.inFlight p), g.grant.trans h.grant, g.order.trans h.order,
    fun hl => g.late (h.late hl)⟩

end Undisturbed

/-! ### Requests as they end and come into flight -/

section InFlight

variable {s t : State} {p : PortId}

theorem applyAndComplete_grant (s : State) (p : PortId) (r : Request) : (s.applyAndComplete p r).grant = s.grant :=
  (blind_applyAndComplete p r).grant s

theorem applyAndComplete_order (s : State) (p : PortId) (r : Request) :
    (s.applyAndComplete p r).deferredOrder = s.deferredOrder := (blind_applyAndComplete p r).deferredOrder s

theorem inFlight_complete (s : State) (p : PortId) (code : ResultCode) (data : List Byte) (q : PortId) :
    ((s.complete p code data).port q).inFlight = if p = q then none else (s.port q).inFlight := by
  rw [State.complete, port_modPort]
  split <;> rfl

theorem inFlight_setInFlight (s : State) (p : PortId) (x : InFlight) (q : PortId) :
    ((s.setInFlight p x).port q).inFlight = if p = q then some x else (s.port q).inFlight := by
  rw [State.setInFlight, port_modPort]
  split <;> rfl

theorem inFlight_showPending (s : State) (p : PortId) (tag : Byte) (q : PortId) :
    ((s.showPending p tag).port q).inFlight = (s.port q).inFlight := inFlight_modPort rfl q

/-- A port without a request in flight completes one: nothing in flight changes. -/
theorem undisturbed_complete (hi : (s.port p).inFlight = none) (code : ResultCode) (data : List Byte) :
    Undisturbed s (s.complete p code data) := by
  refine ⟨fun q => ?_, rfl, rfl, id⟩
  rw [inFlight_complete]
  split
  · next hq => rw [← hq, hi]
  · rfl

theorem undisturbed_answerNow (hi : (s.port p).inFlight = none) (tag : Byte) (code : ResultCode) :
    Undisturbed s (s.answerNow p tag code) :=
  (undisturbed_modPort rfl).trans
    (undisturbed_complete (s := s.showPending p tag) ((inFlight_showPending s p tag p).trans hi) code [])

theorem undisturbed_closeFrame (s : State) (p : PortId) (bits : Nat) : Undisturbed s (s.closeFrame p bits) :=
  undisturbed_modPort rfl

/-- A request applied and completed on a port that has none in flight (R160). -/
theorem undisturbed_applyAndComplete (hi : (s.port p).inFlight = none) (r : Request) :
    Undisturbed s (s.applyAndComplete p r) := by
  refine ⟨fun q => ?_, applyAndComplete_grant s p r, applyAndComplete_order s p r, fun h => applyRequest_lateNotice h p r⟩
  rw [inFlight_applyAndComplete]
  split
  · next hq => rw [← hq, hi]
  · rfl

theorem undisturbed_showPending (s : State) (p : PortId) (tag : Byte) : Undisturbed s (s.showPending p tag) :=
  undisturbed_modPort rfl

end InFlight

/-! ### Every stage but for what leaves the requests in flight -/

/-- A stage at which a request comes into flight or ends, a tick waits, or a grant completes. -/
inductive Turn (s : State) : State → Prop where
  | appliesWaiting (hg : s.grant = none) : Turn s s.applyAllDeferred
  | completes (post : RunEndPost) : Turn s (s.completeAccess post)
  | appliesUpTo {p : PortId} {r : Request} (hp : (s.port p).inFlight = some (.deferred r)) :
      Turn s ((s.completeAccess .atOnce).applyDeferredUpTo p)
  | appliesFirst {p : PortId} {k : ChannelId} (hp : (s.port p).inFlight = some (.afterSegment k)) :
      Turn s ((s.completeAccess .atOnce).applyDeferredFirst p)
  | tickWaits : Turn s (s.enqueue .tick)
  | claims {p : PortId} (hi : (s.port p).inFlight = none) (r : MemoryRequest) : Turn s (s.setInFlight p (.waiting r))
  | defers {p : PortId} {g : Grant} (hi : (s.port p).inFlight = none) (hg : s.grant = some g) (r : Request) :
      Turn s ((s.setInFlight p (deferral g r)).enqueue (.request p))

section Stages

variable {s t : State} {p : PortId}

/-- The end of a frame, whose request comes to the port (R156). -/
theorem undisturbed_frame (s : State) (p : PortId) (bits : Nat) (tag : Byte) :
    Undisturbed s ((s.closeFrame p bits).showPending p tag) :=
  (undisturbed_closeFrame s p bits).trans (undisturbed_showPending _ p tag)

theorem turn_takeRequest (hi : (s.port p).inFlight = none) (bits : Nat) (tag : Byte) (r : Request) :
    ∃ u, Undisturbed s u ∧ (((s.closeFrame p bits).takeRequest p tag r) = u ∨
      Turn u ((s.closeFrame p bits).takeRequest p tag r)) := by
  have hu := undisturbed_frame s p bits tag
  have hi : (((s.closeFrame p bits).showPending p tag).port p).inFlight = none := (hu.inFlight p).trans hi
  cases hg : s.grant with
  | none =>
    have ht : (s.closeFrame p bits).takeRequest p tag r =
        ((s.closeFrame p bits).showPending p tag).applyAndComplete p r := by
      simp only [State.takeRequest, (undisturbed_closeFrame s p bits).grant, hg]
    exact ⟨_, hu.trans (undisturbed_applyAndComplete hi r), .inl ht⟩
  | some g =>
    have ht : (s.closeFrame p bits).takeRequest p tag r =
        (((s.closeFrame p bits).showPending p tag).setInFlight p (deferral g r)).enqueue (.request p) := by
      simp only [State.takeRequest, (undisturbed_closeFrame s p bits).grant, hg]
    rw [ht]
    exact ⟨_, hu, .inr (.defers hi (hu.grant.trans hg) r)⟩

theorem turn_takeMemory (hi : (s.port p).inFlight = none) (bits : Nat) (tag : Byte)
    (r : Except ResultCode MemoryRequest) :
    ∃ u, Undisturbed s u ∧ (((s.closeFrame p bits).takeMemory p tag r) = u ∨
      Turn u ((s.closeFrame p bits).takeMemory p tag r)) := by
  have hu := undisturbed_frame s p bits tag
  have hi : (((s.closeFrame p bits).showPending p tag).port p).inFlight = none := (hu.inFlight p).trans hi
  cases r with
  | error code => exact ⟨_, hu.trans (undisturbed_complete hi code []), .inl rfl⟩
  | ok m => exact ⟨_, hu, .inr (.claims hi m)⟩

theorem stage_turn (h : Stage s t) : ∃ u, Undisturbed s u ∧ (t = u ∨ Turn u t) := by
  have hs : Undisturbed s s := ⟨fun _ => rfl, rfl, rfl, id⟩
  cases h with
  | finishLapses => exact ⟨_, undisturbed_finishLapses s, .inl rfl⟩
  | nextLapse => exact ⟨_, undisturbed_nextLapse s, .inl rfl⟩
  | postLate => exact ⟨_, undisturbed_postLate s, .inl rfl⟩
  | appliesWaiting hg => exact ⟨s, hs, .inr (.appliesWaiting hg)⟩
  | completes post => exact ⟨s, hs, .inr (.completes post)⟩
  | appliesUpTo hp => exact ⟨s, hs, .inr (.appliesUpTo hp)⟩
  | appliesFirst hp => exact ⟨s, hs, .inr (.appliesFirst hp)⟩
  | counts => exact ⟨_, undisturbed_countTick s, .inl rfl⟩
  | tickWaits => exact ⟨s, hs, .inr .tickWaits⟩
  | frameStarts p => exact ⟨_, undisturbed_modPort rfl, .inl rfl⟩
  | wakes => exact ⟨_, undisturbed_modPort rfl, .inl rfl⟩
  | dark p => exact ⟨_, undisturbed_modPort rfl, .inl rfl⟩
  | frameEnds p bits => exact ⟨_, undisturbed_closeFrame s p bits, .inl rfl⟩
  | @lengthFault p _ bits => exact ⟨_, (undisturbed_closeFrame s p bits).trans (undisturbed_modPort rfl), .inl rfl⟩
  | @busy p _ bits => exact ⟨_, (undisturbed_closeFrame s p bits).trans (undisturbed_modPort rfl), .inl rfl⟩
  | @answers p _ hi bits tag code =>
    exact ⟨_, (undisturbed_closeFrame s p bits).trans (undisturbed_answerNow (by
      rw [(undisturbed_closeFrame s p bits).inFlight, hi]) tag code), .inl rfl⟩
  | takesRequest _ hi bits tag r => exact turn_takeRequest hi bits tag r
  | takesMemory _ hi bits tag target op => exact turn_takeMemory hi bits tag _

end Stages

/-! ### What waited, applied (R160) -/

theorem waitsForCompletion_of_inFlight {q q' : Port} (h : q'.inFlight = q.inFlight) :
    q'.waitsForCompletion = q.waitsForCompletion := by
  unfold Port.waitsForCompletion
  rw [h]

theorem waits_not_granted {q : Port} (h : q.waitsForCompletion = true) : q.inFlight ≠ some .granted := by
  intro hg
  simp only [Port.waitsForCompletion, hg, Bool.false_eq_true] at h

theorem waits_of_none {q : Port} (h : q.inFlight = none) : q.waitsForCompletion = false := by
  simp only [Port.waitsForCompletion, h]

section Waiting

variable (s : State)

theorem inFlight_applyDeferred (p q : PortId) :
    ((s.applyDeferred p).port q).inFlight =
      if p = q ∧ (s.port q).waitsForCompletion = true then none else (s.port q).inFlight := by
  have hp : ∀ r, (s.port p).waitsForCompletion = true → ((s.applyAndComplete p r).port q).inFlight =
      if p = q ∧ (s.port q).waitsForCompletion = true then none else (s.port q).inFlight := by
    intro r hw
    rw [inFlight_applyAndComplete]
    by_cases hq : p = q
    · rw [if_pos hq, if_pos ⟨hq, hq ▸ hw⟩]
    · rw [if_neg hq, if_neg (fun h => hq h.1)]
  unfold State.applyDeferred
  split
  · next r hi => exact hp r (by simp only [Port.waitsForCompletion, hi])
  · next k hi => exact hp _ (by simp only [Port.waitsForCompletion, hi])
  · next hd ha =>
    refine (if_neg ?_).symm
    rintro ⟨rfl, hw⟩
    unfold Port.waitsForCompletion at hw
    split at hw
    · next r hi => exact hd r hi
    · next k hi => exact ha k hi
    · cases hw
    · cases hw
    · cases hw

theorem inFlight_applyWaiting (d : Deferred) (q : PortId) :
    ((s.applyWaiting d).port q).inFlight =
      if d = .request q ∧ (s.port q).waitsForCompletion = true then none else (s.port q).inFlight := by
  cases d with
  | request p => simp only [applyWaiting_request, inFlight_applyDeferred, Deferred.request.injEq]
  | tick =>
    rw [if_neg (fun h => Deferred.noConfusion h.1), applyWaiting_tick]
    exact ((posted_refl s).countTick.finishLapses).inFlight q

theorem applyWaiting_grant (d : Deferred) : (s.applyWaiting d).grant = s.grant := by
  cases d with
  | request p => exact (blind_applyDeferred p).grant s
  | tick => exact (undisturbed_finishLapses s.countTick).grant

theorem applyWaiting_order (d : Deferred) : (s.applyWaiting d).deferredOrder = s.deferredOrder := by
  cases d with
  | request p => exact (blind_applyDeferred p).deferredOrder s
  | tick => exact (undisturbed_finishLapses s.countTick).order

theorem foldWaiting_grant (ds : List Deferred) : (ds.foldl State.applyWaiting s).grant = s.grant :=
  List.foldlRecOn (motive := fun t : State => t.grant = s.grant) ds _ rfl
    (fun t ht d _ => (applyWaiting_grant t d).trans ht)

theorem foldWaiting_order (ds : List Deferred) : (ds.foldl State.applyWaiting s).deferredOrder = s.deferredOrder :=
  List.foldlRecOn (motive := fun t : State => t.deferredOrder = s.deferredOrder) ds _ rfl
    (fun t ht d _ => (applyWaiting_order t d).trans ht)

/-- A request that waited and is named ends, and no other request in flight changes. -/
theorem inFlight_foldWaiting (ds : List Deferred) (q : PortId) :
    ((ds.foldl State.applyWaiting s).port q).inFlight =
      if .request q ∈ ds ∧ (s.port q).waitsForCompletion = true then none else (s.port q).inFlight := by
  induction ds generalizing s with
  | nil => rw [List.foldl_nil, if_neg (fun h => List.not_mem_nil h.1)]
  | cons d ds ih =>
    have hd := inFlight_applyWaiting s d q
    rw [List.foldl_cons, ih]
    by_cases h : d = .request q ∧ (s.port q).waitsForCompletion = true
    · rw [if_pos h] at hd
      rw [hd, ite_self, if_pos ⟨List.mem_cons.mpr (.inl h.1.symm), h.2⟩]
    · rw [if_neg h] at hd
      rw [hd, waitsForCompletion_of_inFlight hd]
      refine if_congr ⟨fun ⟨hm, hw⟩ => ⟨List.mem_cons_of_mem d hm, hw⟩, fun ⟨hm, hw⟩ => ⟨?_, hw⟩⟩ rfl rfl
      exact (List.mem_cons.mp hm).resolve_left (fun he => h ⟨he.symm, hw⟩)

end Waiting

/-! ### A grant goes with its port's request (R5, R7) -/

section GrantSound

variable {s t : State}

theorem grantSound_congr (hi : ∀ p, (t.port p).inFlight = (s.port p).inFlight) (hg : t.grant = s.grant)
    (h : s.grantSound) : t.grantSound := by
  intro p
  rw [hi, hg]
  exact h p

/-- Where no port's access holds the array, no port's request is granted. -/
theorem grantSound_of_none (hi : ∀ p, (t.port p).inFlight ≠ some .granted)
    (hg : ∀ p code data, t.grant ≠ some (.access p code data)) : t.grantSound :=
  fun p => ⟨fun h => absurd h (hi p), fun ⟨code, data, h⟩ => absurd h (hg p code data)⟩

theorem not_granted (h : s.grantSound) (hg : ∀ p code data, s.grant ≠ some (.access p code data)) (p : PortId) :
    (s.port p).inFlight ≠ some .granted := by
  intro hp
  obtain ⟨code, data, ha⟩ := (h p).mp hp
  exact hg p code data ha

theorem granted_foldWaiting (s : State) (ds : List Deferred) (q : PortId) :
    ((ds.foldl State.applyWaiting s).port q).inFlight = some .granted ↔ (s.port q).inFlight = some .granted := by
  rw [inFlight_foldWaiting]
  split
  · next h => exact ⟨nofun, fun hg => absurd hg (waits_not_granted h.2)⟩
  · exact Iff.rfl

theorem grantSound_foldWaiting (h : s.grantSound) (ds rest : List Deferred) :
    (ds.foldl State.applyWaiting { s with deferredOrder := rest }).grantSound := by
  intro q
  rw [granted_foldWaiting, foldWaiting_grant]
  exact h q

/-- The access completion: the request that was granted ends, and no other request in flight changes (R7). -/
theorem inFlight_completeAccess (h : s.grantSound) (post : RunEndPost) (q : PortId) :
    ((s.completeAccess post).port q).inFlight =
      if (s.port q).inFlight = some .granted then none else (s.port q).inFlight := by
  unfold State.completeAccess
  split
  · next hg => exact (if_neg (not_granted h (by rw [hg]; nofun) q)).symm
  · next p code data hg =>
    rw [inFlight_complete]
    refine if_congr ⟨fun hq => hq ▸ (h p).mpr ⟨code, data, hg⟩, fun hq => ?_⟩ rfl rfl
    obtain ⟨code', data', hg'⟩ := (h q).mp hq
    cases hg.symm.trans hg'
    rfl
  · next k moved hg =>
    rw [if_neg (not_granted h (by rw [hg]; nofun) q)]
    exact ((posted_refl ({ s with grant := none } : State)).segmentCompletes k moved post).inFlight q

theorem completeAccess_grant (s : State) (post : RunEndPost) : (s.completeAccess post).grant = none := by
  unfold State.completeAccess
  split
  · next hg => exact hg
  · rfl
  · exact (blind_segmentCompletes _ _ post).grant _

theorem completeAccess_order (s : State) (post : RunEndPost) :
    (s.completeAccess post).deferredOrder = s.deferredOrder := by
  unfold State.completeAccess
  split
  · rfl
  · rfl
  · exact (blind_segmentCompletes _ _ post).deferredOrder _

theorem grantSound_completeAccess (h : s.grantSound) (post : RunEndPost) : (s.completeAccess post).grantSound := by
  refine grantSound_of_none (fun p => ?_) (fun p code data => ?_)
  · rw [inFlight_completeAccess h]
    split
    · nofun
    · assumption
  · rw [completeAccess_grant]
    nofun

/-- What an abort that goes on waiting leaves to be applied with port `p`'s request, and what it leaves in the order. -/
theorem applyDeferredUpTo_eq (s : State) (p : PortId) :
    s.applyDeferredUpTo p =
      ((s.deferredOrder.takeWhile (fun d : Deferred => d != .request p)).filter (fun d => !s.abortWaits d) ++
        [Deferred.request p]).foldl State.applyWaiting
          { s with
            deferredOrder := (s.deferredOrder.takeWhile (fun d : Deferred => d != .request p)).filter s.abortWaits ++
              (s.deferredOrder.dropWhile (fun d : Deferred => d != .request p)).drop 1 } := by
  rw [List.foldl_append, List.foldl_cons, List.foldl_nil, applyWaiting_request]
  rfl

theorem applyDeferredFirst_eq (s : State) (p : PortId) :
    s.applyDeferredFirst p =
      [Deferred.request p].foldl State.applyWaiting { s with deferredOrder := s.deferredOrder.erase (.request p) } := rfl

theorem deferral_ne_granted (g : Grant) (r : Request) : deferral g r ≠ .granted := by
  unfold deferral
  split
  · split <;> exact InFlight.noConfusion
  · exact InFlight.noConfusion

/-- A request that comes into flight ungranted. -/
theorem grantSound_setInFlight {p : PortId} {x : InFlight} (hi : (s.port p).inFlight = none) (hx : x ≠ .granted)
    (h : s.grantSound) : (s.setInFlight p x).grantSound := by
  intro q
  rw [inFlight_setInFlight]
  have hq := h q
  split
  · next he =>
    rw [← he, hi] at hq
    exact ⟨fun hc => absurd (Option.some.inj hc) hx, fun hc => nomatch hq.mpr (he ▸ hc)⟩
  · exact hq

theorem grantSound_turn (ht : Turn s t) (h : s.grantSound) : t.grantSound := by
  cases ht with
  | appliesWaiting => exact grantSound_foldWaiting h _ _
  | completes post => exact grantSound_completeAccess h post
  | appliesUpTo =>
    rw [applyDeferredUpTo_eq]
    exact grantSound_foldWaiting (grantSound_completeAccess h .atOnce) _ _
  | appliesFirst =>
    rw [applyDeferredFirst_eq]
    exact grantSound_foldWaiting (grantSound_completeAccess h .atOnce) _ _
  | tickWaits => exact h
  | claims hi r => exact grantSound_setInFlight hi InFlight.noConfusion h
  | @defers p g hi _ r => exact grantSound_setInFlight hi (deferral_ne_granted g r) h

theorem grantSound_stage (hs : Stage s t) (h : s.grantSound) : t.grantSound := by
  obtain ⟨u, hu, ht⟩ := stage_turn hs
  have hu := grantSound_congr hu.inFlight hu.grant h
  obtain rfl | ht := ht
  · exact hu
  · exact grantSound_turn ht hu

end GrantSound

/-! ### The beginning of a grant -/

section Begins

variable {s t : State}

/-- The requests in flight and the order of what waits, up to the holding of the array. -/
def Leads (s t : State) : Prop :=
  (∀ p, (t.port p).inFlight = (s.port p).inFlight) ∧ t.deferredOrder = s.deferredOrder

theorem matchAll_order (s : State) (pr : Presentation) : (s.matchAll pr).deferredOrder = s.deferredOrder := by
  have h := congrArg State.deferredOrder (matchAll_spec s pr).1
  exact h.symm

theorem aside_order (h : { t with watches := s.watches, ports := s.ports } = s) :
    t.deferredOrder = s.deferredOrder := by
  have ho := congrArg State.deferredOrder h
  exact ho

theorem withGrant_order (s : State) (g : Option Grant) : ({ s with grant := g } : State).deferredOrder = s.deferredOrder :=
  rfl

theorem blockAll_order (s : State) (writer : Actor) (addrs : List Nat) (address size : Nat) :
    (s.blockAll writer addrs address size).deferredOrder = s.deferredOrder :=
  aside_order (blockAll_spec s writer addrs address size).1

theorem leads_matchAll (s : State) (pr : Presentation) : Leads s (s.matchAll pr) :=
  ⟨((posted_refl s).matchAll pr).inFlight, matchAll_order s pr⟩

theorem leads_blockAll (s : State) (writer : Actor) (addrs : List Nat) (address size : Nat) :
    Leads s (s.blockAll writer addrs address size) :=
  ⟨((posted_refl s).blockAll writer addrs address size).inFlight, blockAll_order s writer addrs address size⟩

theorem leads_storeMotion (s : State) (p : PortId) (m : Option (CursorId × Nat)) : Leads s (s.storeMotion p m) := by
  cases m with
  | none => exact ⟨fun _ => rfl, rfl⟩
  | some x => exact ⟨inFlight_modPort rfl, rfl⟩

theorem leads_reportNullRef (s : State) (p : PortId) (r : MemoryRequest) : Leads s (s.reportNullRef p r) := by
  refine ⟨((posted_refl s).reportNullRef p r).inFlight, ?_⟩
  unfold State.reportNullRef
  split
  · split
    · split <;> rfl
    · rfl
    · rfl
  · rfl
  · rfl

theorem Leads.trans {u : State} (h : Leads s t) (g : Leads t u) : Leads s u :=
  ⟨fun p => (g.1 p).trans (h.1 p), g.2.trans h.2⟩

theorem leads_withArray (s : State) (m : Memory) : Leads s { s with array := m } := ⟨fun _ => rfl, rfl⟩

theorem accessAt_holds (s : State) (p : PortId) (op : MemoryOp) (place : Place) :
    ∃ u code data, s.accessAt p op place = u.holdArray p code data ∧ Leads s u := by
  unfold State.accessAt
  split
  · exact ⟨s, _, _, rfl, fun _ => rfl, rfl⟩
  · split
    · exact ⟨_, _, _, rfl, leads_blockAll s _ _ _ _⟩
    · exact ⟨_, _, _, rfl, ((leads_withArray s _).trans (leads_storeMotion _ p place.motion)).trans (leads_matchAll _ _)⟩

/-- A memory request that begins holds the array (R16). -/
theorem beginAccess_holds {p : PortId} {r : MemoryRequest} (hb : beginAccess p r s = .next t) :
    ∃ u code data, t = u.holdArray p code data ∧ Leads s u := by
  unfold beginAccess at hb
  split at hb
  · cases hb
    split
    · exact ⟨_, _, _, rfl, leads_reportNullRef s p r⟩
    · exact ⟨s, _, _, rfl, fun _ => rfl, rfl⟩
  · split at hb
    · cases hb
      exact accessAt_holds s p _ _
    · cases hb

theorem segmentAt_holds (s : State) (k : ChannelId) :
    (s.segmentAt k).deferredOrder = s.deferredOrder ∧ ∃ moved, (s.segmentAt k).grant = some (.segment k moved) := by
  unfold State.segmentAt
  dsimp only
  split
  · exact ⟨rfl, _, rfl⟩
  · split
    · exact ⟨(withGrant_order _ _).trans (blockAll_order s _ _ _ _), _, rfl⟩
    · refine ⟨(withGrant_order _ _).trans ((matchAll_order _ _).trans ?_), _, rfl⟩
      exact matchAll_order { s with array := _ } _

/-- A segment that begins holds the array (R125). -/
theorem beginSegment_holds {k : ChannelId} (hb : beginSegment k s = .next t) :
    Leads s t ∧ ∃ moved, t.grant = some (.segment k moved) := by
  have hi := ((posted_refl s).beginSegment hb).inFlight
  unfold beginSegment at hb
  dsimp only at hb
  split at hb
  · cases hb
    obtain ⟨ho, hg⟩ := segmentAt_holds { s with enginePointer := k + 1 } k
    exact ⟨⟨hi, ho⟩, hg⟩
  · cases hb

end Begins

/-! ### The order of what waits (R55, R160) -/

/-- The order names each port whose request waits, once, and no other. -/
def Ordered (s : State) (ds : List Deferred) : Prop :=
  ∀ p, ds.count (.request p) = ((s.port p).waitsForCompletion).toNat

theorem waitsSound_iff (s : State) :
    s.waitsSound ↔ Ordered s s.deferredOrder ∧ (s.grant ≠ none → s.lateNotice = none) := by
  constructor
  · rintro ⟨hm, hc, hl⟩
    refine ⟨fun p => ?_, hl⟩
    have hp := hm p
    have hone := hc p
    cases hw : (s.port p).waitsForCompletion with
    | true => exact le_antisymm hone (List.count_pos_iff.mpr (hp.mpr hw))
    | false => exact List.count_eq_zero_of_not_mem (fun hin => by cases hw.symm.trans (hp.mp hin))
  · rintro ⟨ho, hl⟩
    refine ⟨fun p => ?_, fun p => (ho p).trans_le (Bool.toNat_le _), hl⟩
    rw [← List.count_pos_iff, ho p]
    cases (s.port p).waitsForCompletion <;> decide

section Ordered

variable {s t : State} {ds rest : List Deferred}

theorem Ordered.congr (hw : ∀ p, (t.port p).waitsForCompletion = (s.port p).waitsForCompletion) (h : Ordered s ds) :
    Ordered t ds := fun p => (h p).trans (congrArg Bool.toNat (hw p).symm)

theorem Ordered.mem (h : Ordered s ds) {p : PortId} (hw : (s.port p).waitsForCompletion = true) : .request p ∈ ds := by
  rw [← List.count_pos_iff, h p, hw]
  decide

/-- What waited in part: the rest goes on waiting. -/
theorem Ordered.foldWaiting (h : Ordered s (ds ++ rest)) : Ordered (ds.foldl State.applyWaiting s) rest := by
  intro p
  have hp := h p
  have hi := inFlight_foldWaiting s ds p
  rw [List.count_append] at hp
  by_cases hd : .request p ∈ ds ∧ (s.port p).waitsForCompletion = true
  · rw [if_pos hd] at hi
    have hpos := List.count_pos_iff.mpr hd.1
    rw [waits_of_none hi]
    rw [hd.2] at hp
    simp only [Bool.toNat_true, Bool.toNat_false] at hp ⊢
    omega
  · rw [if_neg hd] at hi
    rw [waitsForCompletion_of_inFlight hi]
    have hz : ds.count (.request p) = 0 := by
      refine List.count_eq_zero_of_not_mem (fun hin => ?_)
      rw [Bool.eq_false_iff.mpr (fun hw => hd ⟨hin, hw⟩)] at hp
      have hpos := List.count_pos_iff.mpr hin
      simp only [Bool.toNat_false] at hp
      omega
    rw [hz, Nat.zero_add] at hp
    exact hp

theorem Ordered.perm {ds' : List Deferred} (h : Ordered s ds) (hp : ds.Perm ds') : Ordered s ds' :=
  fun p => (hp.count_eq _).symm.trans (h p)

end Ordered

/-- A list around one of its members. -/
theorem takeWhile_cons_dropWhile {p : PortId} {ds : List Deferred} (h : .request p ∈ ds) :
    ds = ds.takeWhile (fun d : Deferred => d != .request p) ++
      .request p :: (ds.dropWhile (fun d : Deferred => d != .request p)).drop 1 := by
  induction ds with
  | nil => exact absurd h List.not_mem_nil
  | cons d ds ih =>
    by_cases hd : d = .request p
    · simp [hd]
    · have hm : .request p ∈ ds := (List.mem_cons.mp h).resolve_left (Ne.symm hd)
      have hb : (d != .request p) = true := bne_iff_ne.mpr hd
      rw [List.takeWhile_cons, List.dropWhile_cons, if_pos hb, if_pos hb, List.cons_append, ← ih hm]

/-- What is applied up to port `p`'s request, and what goes on waiting, are what waited (R160). -/
theorem perm_upTo (ab : Deferred → Bool) {p : PortId} {ds : List Deferred} (h : .request p ∈ ds) :
    ds.Perm (((ds.takeWhile (fun d : Deferred => d != .request p)).filter (fun d => !ab d) ++ [Deferred.request p]) ++
      ((ds.takeWhile (fun d : Deferred => d != .request p)).filter ab ++
        (ds.dropWhile (fun d : Deferred => d != .request p)).drop 1)) := by
  have hd := takeWhile_cons_dropWhile h
  generalize ds.takeWhile (fun d : Deferred => d != .request p) = before at hd ⊢
  generalize (ds.dropWhile (fun d : Deferred => d != .request p)).drop 1 = behind at hd ⊢
  subst hd
  have hf : before.Perm (before.filter (fun d => !ab d) ++ before.filter ab) :=
    (List.perm_append_comm.trans (List.filter_append_perm ab before)).symm
  have hs := hf.append_right (.request p :: behind)
  refine hs.trans ?_
  simp only [List.append_assoc, List.singleton_append]
  exact List.Perm.append_left _ List.perm_middle

/-! ### Both through every stage -/

section Sound

variable {s t : State}

/-- A grant and the order of what waits for its completion. -/
def OrderSound (s : State) : Prop := Ordered s s.deferredOrder ∧ (s.grant ≠ none → s.lateNotice = none)

theorem orderSound_undisturbed (hu : Undisturbed s t) (h : OrderSound s) : OrderSound t := by
  obtain ⟨ho, hl⟩ := h
  refine ⟨?_, fun hg => hu.late (hl (hu.grant ▸ hg))⟩
  rw [hu.order]
  exact ho.congr (fun p => waitsForCompletion_of_inFlight (hu.inFlight p))

/-- Once the array is free, what waits is applied in part. -/
theorem orderSound_foldWaiting {ds rest : List Deferred} (h : Ordered s (ds ++ rest)) (hg : s.grant = none) :
    OrderSound (ds.foldl State.applyWaiting { s with deferredOrder := rest }) := by
  have hn := (foldWaiting_grant { s with deferredOrder := rest } ds).trans hg
  refine ⟨?_, fun hc => absurd hn hc⟩
  rw [foldWaiting_order]
  exact Ordered.foldWaiting (s := { s with deferredOrder := rest }) h

theorem waits_completeAccess (hs : s.grantSound) (post : RunEndPost) (p : PortId) :
    ((s.completeAccess post).port p).waitsForCompletion = (s.port p).waitsForCompletion := by
  have hi := inFlight_completeAccess hs post p
  split at hi
  · next hp => rw [waits_of_none hi, Port.waitsForCompletion, hp]
  · exact waitsForCompletion_of_inFlight hi

theorem ordered_completeAccess (hs : s.grantSound) (h : Ordered s s.deferredOrder) (post : RunEndPost) :
    Ordered (s.completeAccess post) (s.completeAccess post).deferredOrder := by
  rw [completeAccess_order]
  exact h.congr (waits_completeAccess hs post)

theorem waits_setInFlight (p q : PortId) (x : InFlight) :
    ((s.setInFlight p x).port q).waitsForCompletion =
      if p = q then ({ s.port q with inFlight := some x } : Port).waitsForCompletion
      else (s.port q).waitsForCompletion := by
  have hi := inFlight_setInFlight s p x q
  split at hi
  · exact (waitsForCompletion_of_inFlight hi).trans (if_pos (by assumption)).symm
  · exact (waitsForCompletion_of_inFlight hi).trans (if_neg (by assumption)).symm

theorem deferral_waits (g : Grant) (r : Request) (q : Port) :
    ({ q with inFlight := some (deferral g r) } : Port).waitsForCompletion = true := by
  unfold deferral
  split
  · split <;> rfl
  · rfl

/-- A memory request that waits for its grant waits for no completion (R5). -/
theorem ordered_claims {p : PortId} (hi : (s.port p).inFlight = none) (r : MemoryRequest) (h : Ordered s s.deferredOrder) :
    Ordered (s.setInFlight p (.waiting r)) s.deferredOrder := by
  refine h.congr (fun q => ?_)
  rw [waits_setInFlight]
  split
  · next hq => rw [← hq, waits_of_none hi]; rfl
  · rfl

/-- A request taken while a grant holds the array waits behind what waits already (R160). -/
theorem ordered_defers {p : PortId} (hi : (s.port p).inFlight = none) (g : Grant) (r : Request)
    (h : Ordered s s.deferredOrder) :
    Ordered (s.setInFlight p (deferral g r)) (s.deferredOrder ++ [.request p]) := by
  intro q
  have hq := h q
  rw [List.count_append, waits_setInFlight, hq]
  split
  · next he =>
    subst he
    rw [waits_of_none hi, deferral_waits, List.count_singleton_self]
    rfl
  · next he =>
    have hz : List.count (.request q) [Deferred.request p] = 0 :=
      List.count_eq_zero_of_not_mem (fun hm => he (Deferred.request.inj (List.mem_singleton.mp hm)).symm)
    rw [hz, Nat.add_zero]

theorem orderSound_turn (ht : Turn s t) (hs : s.grantSound) (h : OrderSound s) : OrderSound t := by
  obtain ⟨ho, hl⟩ := h
  have hc := ordered_completeAccess hs ho .atOnce
  have hg := completeAccess_grant s .atOnce
  cases ht with
  | appliesWaiting hn =>
    refine orderSound_foldWaiting ?_ hn
    rw [List.append_nil]
    exact ho
  | completes post =>
    exact ⟨ordered_completeAccess hs ho post, fun hn => absurd (completeAccess_grant s post) hn⟩
  | @appliesUpTo p r hp =>
    rw [applyDeferredUpTo_eq]
    have hw : ((s.completeAccess .atOnce).port p).waitsForCompletion = true := by
      rw [waits_completeAccess hs, Port.waitsForCompletion, hp]
    exact orderSound_foldWaiting (hc.perm (perm_upTo _ (hc.mem hw))) hg
  | @appliesFirst p k hp =>
    rw [applyDeferredFirst_eq]
    have hw : ((s.completeAccess .atOnce).port p).waitsForCompletion = true := by
      rw [waits_completeAccess hs, Port.waitsForCompletion, hp]
    exact orderSound_foldWaiting (hc.perm (List.perm_cons_erase (hc.mem hw))) hg
  | tickWaits =>
    refine ⟨fun p => ?_, hl⟩
    rw [enqueue_deferredOrder, List.count_append]
    exact ho p
  | claims hi r => exact ⟨ordered_claims hi r ho, hl⟩
  | @defers p g hi _ r => exact ⟨ordered_defers hi g r ho, hl⟩

theorem orderSound_stage (hst : Stage s t) (hs : s.grantSound) (h : OrderSound s) : OrderSound t := by
  obtain ⟨u, hu, ht⟩ := stage_turn hst
  have hou := orderSound_undisturbed hu h
  obtain rfl | ht := ht
  · exact hou
  · exact orderSound_turn ht (grantSound_congr hu.inFlight hu.grant hs) hou

/-! ### The beginning of a grant, and the board's events -/

theorem Leads.ordered (hl : Leads s t) (h : Ordered s s.deferredOrder) : Ordered t t.deferredOrder := by
  rw [hl.2]
  exact h.congr (fun p => waitsForCompletion_of_inFlight (hl.1 p))

/-- A port's request is granted, with the grant of its access (R5, R7). -/
theorem grantSound_holdArray (hn : ∀ q, (s.port q).inFlight ≠ some .granted) (p : PortId) (code : ResultCode)
    (data : List Byte) : (s.holdArray p code data).grantSound := by
  intro q
  have hi : ((s.holdArray p code data).port q).inFlight = if p = q then some .granted else (s.port q).inFlight :=
    inFlight_setInFlight s p .granted q
  rw [hi]
  split
  · next hq => exact ⟨fun _ => ⟨code, data, by rw [hq]; rfl⟩, fun _ => rfl⟩
  · next hq => exact ⟨fun hc => absurd hc (hn q), fun ⟨c, d, hc⟩ => by cases hc; exact absurd rfl hq⟩

theorem ordered_holdArray {p : PortId} {m : MemoryRequest} (hp : (s.port p).inFlight = some (.waiting m))
    (code : ResultCode) (data : List Byte) (h : Ordered s s.deferredOrder) :
    Ordered (s.holdArray p code data) s.deferredOrder := by
  refine h.congr (fun q => (waits_setInFlight p q .granted).trans ?_)
  split
  · next hq => rw [← hq, Port.waitsForCompletion, Port.waitsForCompletion, hp]
  · rfl

/-- The notice kept is posted before the grant's completion (R111). -/
theorem orderSound_postLate (h : Ordered s s.deferredOrder) : OrderSound s.postLate := by
  refine ⟨?_, fun _ => postLate_lateNotice s⟩
  rw [postLate_deferredOrder]
  exact h.congr (fun p => waitsForCompletion_of_inFlight ((undisturbed_postLate s).inFlight p))

theorem grantSound_postLate (h : s.grantSound) : s.postLate.grantSound :=
  grantSound_congr (undisturbed_postLate s).inFlight (undisturbed_postLate s).grant h

theorem leads_advancePointer (s : State) (r : Requester) : Leads s (s.advancePointer r) := ⟨fun _ => rfl, rfl⟩

theorem grantSound_begins (hb : Begins s t) (h : s.grantSound) : t.grantSound := by
  have hn := not_granted h (by rw [(begins_free hb).2]; nofun)
  cases hb with
  | @access p r u hc hu =>
    obtain ⟨v, code, data, rfl, hl⟩ := beginAccess_holds hu
    refine grantSound_postLate (grantSound_holdArray (fun q => ?_) p code data)
    rw [hl.1]
    exact hn q
  | @segment k u hc hu =>
    obtain ⟨hl, moved, hg⟩ := beginSegment_holds hu
    refine grantSound_postLate (grantSound_of_none (fun q => ?_) (by rw [hg]; nofun))
    rw [hl.1]
    exact hn q

theorem orderSound_begins (hb : Begins s t) (h : OrderSound s) : OrderSound t := by
  cases hb with
  | @access p r u hc hu =>
    obtain ⟨v, code, data, rfl, hl⟩ := beginAccess_holds hu
    have hv : Leads s v := (leads_advancePointer s _).trans hl
    exact orderSound_postLate (ordered_holdArray ((hv.1 p).trans (PortChanges.memoryChoice_inFlight hc)) code data
      (hv.ordered h.1))
  | @segment k u hc hu =>
    have hv : Leads s u := (leads_advancePointer s 4).trans (beginSegment_holds hu).1
    exact orderSound_postLate (hv.ordered h.1)

/-- After a power-on or a device reset nothing is in flight and nothing waits (R2, R3). -/
theorem rests_sound (h : Rests s) : s.grantSound ∧ OrderSound s := by
  refine ⟨grantSound_of_none (fun p => ?_) (by rw [h.grant]; nofun), fun p => ?_, fun _ => h.late⟩
  · rw [(h.port p).inFlight]
    nofun
  · rw [h.order, waits_of_none (h.port p).inFlight]
    rfl

/-- Both through an event of the board, which resets the part or leaves what is in flight. -/
theorem sound_power (hp : Power s t) :
    (s.grantSound → t.grantSound) ∧ (OrderSound s → OrderSound t) := by
  have hboth : t.grantSound ∧ OrderSound t → (s.grantSound → t.grantSound) ∧ (OrderSound s → OrderSound t) :=
    fun ⟨hg, ho⟩ => ⟨fun _ => hg, fun _ => ho⟩
  cases hp with
  | rises => exact hboth (rests_sound (rests_powerOn s))
  | falls => exact hboth (rests_sound ((rests_powerOn s).congr rfl rfl rfl rfl rfl))
  | asserts => exact hboth (rests_sound ((rests_deviceReset s).congr rfl rfl rfl rfl rfl))
  | fills => exact ⟨id, id⟩
  | assertsDark => exact ⟨id, id⟩
  | releasesDark => exact ⟨id, id⟩
  | releasesFilled => exact ⟨id, id⟩
  | releasesUnfilled => exact ⟨id, id⟩

theorem grantSound_act (ha : Act s t) (h : s.grantSound) : t.grantSound := by
  cases ha with
  | stage hst => exact grantSound_stage hst h
  | begins hb => exact grantSound_begins hb h
  | power hp => exact (sound_power hp).1 h

theorem orderSound_act (ha : Act s t) (h : s.grantSound ∧ OrderSound s) : t.grantSound ∧ OrderSound t := by
  obtain ⟨hg, ho⟩ := h
  refine ⟨grantSound_act ha hg, ?_⟩
  cases ha with
  | stage hst => exact orderSound_stage hst hg ho
  | begins hb => exact orderSound_begins hb ho
  | power hp => exact (sound_power hp).2 ho

theorem grantSound_step (h : s.grantSound) (he : step s = .next t) : t.grantSound :=
  step_keeps (fun _ _ => grantSound_act) (fun _ _ h => h) h he

theorem waitsSound_step (hw : s.waitsSound) (hg : s.grantSound) (he : step s = .next t) : t.waitsSound :=
  (waitsSound_iff t).mpr (step_keeps (I := fun u => u.grantSound ∧ OrderSound u) (fun _ _ => orderSound_act)
    (fun _ _ h => h) ⟨hg, (waitsSound_iff s).mp hw⟩ he).2

end Sound

/-- Settles O60: each invariant is kept by every stage of a command. -/
theorem nothingRunsBeforeReady : Obligations.NothingRunsBeforeReady :=
  ⟨fun _ _ => quietWhenNotReady_step, fun _ _ => ticksWhenReady_step, fun _ _ => waitsSound_step,
    fun _ _ => grantSound_step⟩

end Sys2Proof.WaitingOrder
end

section
/-! SUPPORT. A memory request and a segment at their grants, up to the completion (R16, R125): performed, refused by its
resolution, or refused by a hold; and the statements about them. -/

namespace Sys2Proof.GrantSteps

open Sys2Proof Sys2Proof.Machine Sys2Proof.Claims Sys2Proof.Matching

/-! ### A port's memory request (R16) -/

section Access

variable {s u : State} {p : PortId} {r : MemoryRequest} {code : ResultCode} {data : List Byte}

/-- From the state in which the access holds the array to its completion, where no notice is kept. -/
theorem memoryGrant_of_begins (hs : s.settled) (hc : s.memoryChoice = some (p, r)) (hg : u.grant = none)
    (hl : u.lateNotice = none) (hb : beginAccess p r (afterPort s p) = .next (u.holdArray p code data)) :
    exec (.memoryGrant .whole) s = .next (u.complete p code data) := by
  have hw : exec (.memoryGrant .whole) s =
      andThen (beginAccess p r (afterPort s p)) (fun t => t.postLate.completeAccess .atOnce) :=
    execMemoryGrant_chosen (clearWay_settled hs.1 hs.2.2) hc
  rw [hw, hb, andThen, postLate_none ((holdArray_lateNotice u p code data).trans hl),
    completeAccess_holdArray u p code data .atOnce hg]

/-- Settles O36: with nothing due and no hold, the steps of the grant leave no notice between them and its completion. -/
theorem grantPerformsInSteps : Obligations.GrantPerformsInSteps :=
  fun _ _ _ _ h hh => execMemoryGrant_performed h.settled h.noGrant h.chosen h.resolved h.inside hh

/-! #### A write that a hold refuses (R65 to R67) -/

theorem beginAccess_of_resolved {place : Place} (hr : s.resolve p r = .ok place) (hi : inArray place.addrs = true) :
    beginAccess p r s = .next (s.accessAt p r.op place) := by
  unfold beginAccess
  rw [hr]
  exact if_pos hi

theorem accessAt_runHeld {op : MemoryOp} {place : Place} (hw : op.writes = true)
    (hh : s.runHeld (.port p) place.addrs = true) : s.accessAt p op place = s.holdArray p .runHold [] :=
  if_pos (by rw [hw, hh]; rfl)

theorem accessAt_watchHeld {op : MemoryOp} {place : Place} (hw : op.writes = true)
    (hn : s.runHeld (.port p) place.addrs = false) (hh : s.watchHeld (.port p) place.addrs = true) :
    s.accessAt p op place =
      (s.blockAll (.port p) place.addrs (firstAddress place.addrs) op.size).holdArray p .watchHold [] := by
  unfold State.accessAt
  rw [hw, hn, hh]
  rfl

/-- The BLOCKED notices that a port hears of a refused write, one after another (R67, R79). -/
theorem blockAll_port (s : State) (writer : Actor) (addrs : List Nat) (address size : Nat) (q : PortId) :
    (s.blockAll writer addrs address size).port q =
      (List.finRange 16).foldl (fun x w =>
        if (s.watch w).refuses writer addrs = true ∧ hears q (s.watch w) writer then
          x.post ⟨.watch w, 16, (s.watch w).config.priority, some writer, some address, some size, none, none⟩
        else x) (s.port q) := by
  have h := (blockAll_spec s writer addrs address size).2.2 q
  simp only [audience_iff, watchIds_eq_finRange] at h
  exact h

theorem blockAll_port_channel (s : State) (k : ChannelId) (addrs : List Nat) (address size : Nat) (q : PortId) :
    (s.blockAll (.channel k) addrs address size).port q =
      (List.finRange 16).foldl (fun x w =>
        if (s.watch w).refuses (.channel k) addrs = true ∧ (s.watch w).subscribers.getLsbD q.val = true then
          x.post ⟨.watch w, 16, (s.watch w).config.priority, some (.channel k), some address, some size, none, none⟩
        else x) (s.port q) := by
  have h := (blockAll_spec s (.channel k) addrs address size).2.2 q
  rw [watchIds_eq_finRange] at h
  exact h

theorem blockAll_watch (s : State) (writer : Actor) (addrs : List Nat) (address size : Nat) (w : WatchId) :
    (s.blockAll writer addrs address size).watch w =
      if (s.watch w).refuses writer addrs = true then
        { s.watch w with hits := countUp 65535 (s.watch w).hits } else s.watch w :=
  (blockAll_spec s writer addrs address size).2.1 w

/-- Settles O38: a run hold refuses first, and the refusals change nothing but watches and notices. -/
theorem heldWriteStoresNothing : Obligations.HeldWriteStoresNothing := by
  intro s p r place h hw
  have hb : beginAccess p r (afterPort s p) = .next ((afterPort s p).accessAt p r.op place) :=
    beginAccess_of_resolved h.resolved h.inside
  refine ⟨fun hh => ?run, fun hn hh => ?watch⟩
  case run =>
    rw [accessAt_runHeld (s := afterPort s p) hw hh] at hb
    exact memoryGrant_of_begins h.settled h.chosen h.noGrant h.settled.2.1 hb
  case watch =>
    rw [accessAt_watchHeld (s := afterPort s p) hw hn hh] at hb
    have hg := (blockAll_grant (afterPort s p) (.port p) place.addrs (firstAddress place.addrs) r.op.size).trans h.noGrant
    exact ⟨_, memoryGrant_of_begins h.settled h.chosen hg ((blockAll_lateNotice _ _ _ _ _).trans h.settled.2.1) hb,
      (blockAll_spec (afterPort s p) _ _ _ _).1, blockAll_watch (afterPort s p) _ _ _ _,
      blockAll_port (afterPort s p) _ _ _ _⟩

/-! #### A request that its resolution refuses (R30, R33) -/

theorem beginAccess_of_unresolved (hr : s.resolve p r = .error code) :
    beginAccess p r s = .next ((if code = .nullAnchor then s.reportNullRef p r else s).holdArray p code []) := by
  unfold beginAccess
  rw [hr]

theorem postTo_single (s : State) (q : PortId) (n : Notice) :
    s.postTo (single q.val) n = s.modPort q (fun x => x.post n) := by
  refine eq_of_ports rfl (fun i => ?_)
  rw [port_postTo, port_modPort, getLsbD_single]
  by_cases hi : q = i <;> simp [hi]

theorem reportNullRef_none {a : AnchorId} {offset : Nat} (ht : r.target = .anchored a offset)
    (ho : ∀ q, (s.anchor a).owner = .owned q → q = p) : s.reportNullRef p r = s := by
  simp only [State.reportNullRef, ht]
  cases hw : (s.anchor a).owner with
  | free => rfl
  | owned q => exact if_pos (ho q hw)
  | orphaned => rfl

theorem reportNullRef_owner {a : AnchorId} {offset : Nat} {q : PortId} (ht : r.target = .anchored a offset)
    (ho : (s.anchor a).owner = .owned q) (hq : q ≠ p) :
    s.reportNullRef p r =
      s.modPort q (fun x => x.post ⟨.anchor a, 1, 5, some (.port p), none, some r.op.size, none, none⟩) := by
  simp only [State.reportNullRef, ht, ho, if_neg hq, postTo_single]
  rfl

/-- Settles O39: the refusal holds the array with its outcome at once; its one effect before that is the notice of R33. -/
theorem unresolvedRequestMovesNothing : Obligations.UnresolvedRequestMovesNothing := by
  intro s p r code h
  have hb : beginAccess p r (afterPort s p) =
      .next ((if code = .nullAnchor then (afterPort s p).reportNullRef p r else afterPort s p).holdArray p code []) :=
    beginAccess_of_unresolved h.refused
  refine ⟨fun hn => ?plain, fun a offset ht hn => ⟨fun ho => ?own, fun q ho hq => ?other⟩⟩
  case plain =>
    rw [if_neg hn] at hb
    exact memoryGrant_of_begins h.settled h.chosen h.noGrant h.settled.2.1 hb
  case own =>
    rw [if_pos hn, reportNullRef_none (s := afterPort s p) ht ho] at hb
    exact memoryGrant_of_begins h.settled h.chosen h.noGrant h.settled.2.1 hb
  case other =>
    rw [if_pos hn, reportNullRef_owner (s := afterPort s p) ht ho hq] at hb
    exact memoryGrant_of_begins h.settled h.chosen h.noGrant h.settled.2.1 hb

end Access

/-! ### A segment (R125) -/

section Segment

variable {s u : State} {k : ChannelId}

/-- The pointers as the grant to channel `k` leaves them (R6, R124). -/
def afterSegment (s : State) (k : ChannelId) : State := { s with pointer := 0, enginePointer := k + 1 }

/-- From a segment that a hold refuses to its completion, where no notice is kept. -/
theorem segmentGrant_of_refused (h : SegmentGranted s k) (hg : u.grant = none) (hl : u.lateNotice = none)
    (hu : (afterSegment s k).segmentAt k = { u with grant := some (.segment k none) }) (post : RunEndPost) :
    exec (.segmentGrant (.whole post)) s = .next (u.segmentCompletes k none post) := by
  have hb : beginSegment k { s with pointer := 0 } = .next ((afterSegment s k).segmentAt k) :=
    if_pos (Bool.and_eq_true_iff.mpr ⟨h.source, h.destination⟩)
  have hw : exec (.segmentGrant (.whole post)) s =
      andThen (beginSegment k { s with pointer := 0 }) (fun t => t.postLate.completeAccess post) :=
    execSegmentGrant_chosen post (clearWay_settled h.settled.1 h.settled.2.2) h.chosen
  rw [hw, hb, hu]
  exact congrArg Host.Outcome.next (postLate_completeAccess_segment u k none post hl hg)

theorem segmentAt_runHeld (hh : s.runHeld (.channel k) (s.channel k).segmentDestination = true) :
    s.segmentAt k = { s with grant := some (.segment k none) } := if_pos hh

theorem segmentAt_watchHeld (hn : s.runHeld (.channel k) (s.channel k).segmentDestination = false)
    (hh : s.watchHeld (.channel k) (s.channel k).segmentDestination = true) :
    s.segmentAt k =
      { s.blockAll (.channel k) (s.channel k).segmentDestination (firstAddress (s.channel k).segmentDestination)
          (s.channel k).segmentSize with grant := some (.segment k none) } := by
  unfold State.segmentAt
  dsimp only
  rw [hn, hh]
  rfl

/-- Settles O42: performed where no hold refuses it, else refused by a run hold first. -/
theorem segmentPerformsOrIsHeld : Obligations.SegmentPerformsOrIsHeld := by
  refine ⟨?performed, ?held⟩
  case performed =>
    rintro s k e n source destination post h rfl rfl rfl rfl hr hw
    exact execSegmentGrant_performed post h.settled h.noGrant h.chosen h.source h.destination hr hw
  case held =>
    rintro s k e n destination post h rfl rfl rfl
    refine ⟨fun hh => ?_, fun hn hh => ?_⟩
    · have hu := segmentAt_runHeld (s := afterSegment s k) hh
      exact segmentGrant_of_refused (u := afterSegment s k) h h.noGrant h.settled.2.1 hu post
    · have hu := segmentAt_watchHeld (s := afterSegment s k) hn hh
      have hg := (blockAll_grant (afterSegment s k) (.channel k) ((afterSegment s k).channel k).segmentDestination
        (firstAddress ((afterSegment s k).channel k).segmentDestination)
        ((afterSegment s k).channel k).segmentSize).trans h.noGrant
      exact ⟨_, segmentGrant_of_refused h hg ((blockAll_lateNotice _ _ _ _ _).trans h.settled.2.1) hu post,
        (blockAll_spec (afterSegment s k) _ _ _ _).1, blockAll_watch (afterSegment s k) _ _ _ _,
        fun q => blockAll_port_channel (afterSegment s k) k _ _ _ q⟩

end Segment

end Sys2Proof.GrantSteps
end

section
/-! SUPPORT. What a performed memory request answers and leaves (R11 to R18, R38): the array and the result of each
operation, the cursor that its motion stores, and the statement about them. -/

namespace Sys2Proof.GrantResults

open Sys2Proof Sys2Proof.Machine Sys2Proof.Claims Sys2Proof.Posting Sys2Proof.Resolution Sys2Proof.GrantSteps

/-! ### The bytes (R11 to R15) -/

section Bytes

variable {m : Memory} {op : MemoryOp} {addrs : List Nat}

theorem leBytes_length (n v : Nat) : (leBytes n v).length = n := by
  induction n generalizing v with
  | zero => rfl
  | succ n ih => exact congrArg (· + 1) (ih (v / 256))

theorem modulus_eq (w : Width) : w.modulus = 2 ^ (8 * w.bytes) := by
  cases w <;> rfl

/-- Outside its addresses no operation changes a byte. -/
theorem read_perform_other {a : Nat} (ha : a ∉ addrs) : (op.perform m addrs).array.read a = m.read a := by
  cases op with
  | read size => rfl
  | write data => exact Memory.read_writeAll_other ha
  | exchange width expected new =>
    unfold MemoryOp.perform
    dsimp only
    split
    · exact Memory.read_writeAll_other ha
    · rfl
  | fetchAdd width addend => exact Memory.read_writeAll_other ha

theorem perform_exchange_equal {width : Width} {expected new : Nat} (h : leValue (m.readAll addrs) = expected) :
    (MemoryOp.exchange width expected new).perform m addrs =
      ⟨m.writeAll addrs (leBytes width.bytes new), .done, m.readAll addrs, true⟩ := if_pos h

theorem perform_exchange_other {width : Width} {expected new : Nat} (h : leValue (m.readAll addrs) ≠ expected) :
    (MemoryOp.exchange width expected new).perform m addrs = ⟨m, .compareFailed, m.readAll addrs, false⟩ := if_neg h

/-- An EXCHANGE answers the bytes it has found, whether it stores or not (R13). -/
theorem perform_exchange_data (width : Width) (expected new : Nat) :
    ((MemoryOp.exchange width expected new).perform m addrs).data = m.readAll addrs := by
  by_cases h : leValue (m.readAll addrs) = expected
  · rw [perform_exchange_equal h]
  · rw [perform_exchange_other h]

end Bytes

/-! ### The port (R18, R38) -/

section Port

variable {s t : State} {p : PortId}

/-- A post leaves the result slot. -/
theorem post_slot (q : Port) (n : Notice) : (q.post n).slot = q.slot := by
  have h : q.post n = (q.post n).withFrameSide q.slot q.inFlight q.frame q.shifted := post_frameSide q n _ _ _ _
  rw [h]
  rfl

theorem posted_slot (h : Posted s t) (q : PortId) : (t.port q).slot = (s.port q).slot := by
  obtain ⟨ns, ht⟩ := h q
  rw [ht]
  exact List.foldlRecOn (motive := fun x : Port => x.slot = (s.port q).slot) ns _ rfl
    (fun x hx n _ => (post_slot x n).trans hx)

theorem storeMotion_slot (s : State) (p : PortId) (m : Option (CursorId × Nat)) (q : PortId) :
    ((s.storeMotion p m).port q).slot = (s.port q).slot := by
  cases m with
  | none => rfl
  | some x =>
    unfold State.storeMotion
    rw [port_modPort]
    split
    · next hq => exact congrArg (fun i => (s.port i).slot) hq
    · rfl

theorem storeMotion_anchors (s : State) (p : PortId) (m : Option (CursorId × Nat)) :
    (s.storeMotion p m).anchors = s.anchors := by
  cases m <;> rfl

/-- The cursor that a motion names keeps its anchor and takes the offset; every other stands (R38). -/
theorem storeMotion_cursor (s : State) (p : PortId) (c : CursorId) (offset : Nat) (q : PortId) (d : CursorId) :
    ((s.storeMotion p (some (c, offset))).port q).cursor d =
      if p = q ∧ c = d then ((s.port p).cursor c).map (fun b => ⟨b.anchor, offset⟩) else (s.port q).cursor d := by
  by_cases hq : p = q
  · subst hq
    rw [storeMotion_port, cursor_setCursor]
    simp only [true_and]
  · rw [storeMotion_port_other _ _ _ _ hq, if_neg (fun h => hq h.1)]

theorem complete_cursor (s : State) (p : PortId) (code : ResultCode) (data : List Byte) (q : PortId) (d : CursorId) :
    ((s.complete p code data).port q).cursor d = (s.port q).cursor d := by
  rw [State.complete, port_modPort]
  split
  · next hq => exact congrArg (fun i => (s.port i).cursor d) hq
  · rfl

theorem complete_port (s : State) (p : PortId) (code : ResultCode) (data : List Byte) :
    ((s.complete p code data).port p).slot = ⟨(s.port p).slot.tag, code, data⟩ ∧
      ((s.complete p code data).port p).inFlight = none := by
  rw [State.complete, port_modPort_same]
  exact ⟨rfl, rfl⟩

/-- A motion is that of a bound cursor (R27, R35). -/
theorem bound_of_motion {r : MemoryRequest} {place : Place} {c : CursorId} {offset : Nat}
    (h : s.resolve p r = .ok place) (hm : place.motion = some (c, offset)) : ∃ b, (s.port p).cursor c = some b := by
  cases admitted_of_resolve h with
  | absolute => cases hm
  | anchored => cases hm
  | cursor _ hb =>
    cases hm
    exact ⟨_, hb⟩

end Port

/-! ### The performed request -/

section Performed

/-- The state after a request's performance, motion, matching and completion (R16). -/
def performed (s : State) (p : PortId) (r : MemoryRequest) (place : Place) : State :=
  ((({ afterPort s p with array := (r.op.perform s.array place.addrs).array } : State).storeMotion p
    place.motion).matchAll ⟨.port p, place.addrs, place.addrs.headD 0, r.op.size,
      (r.op.perform s.array place.addrs).write⟩).complete p (r.op.perform s.array place.addrs).code
        (r.op.perform s.array place.addrs).data

variable (s : State) (p : PortId) (r : MemoryRequest) (place : Place)

theorem performed_array : (performed s p r place).array = (r.op.perform s.array place.addrs).array := by
  rw [performed, complete_array, matchAll_array, storeMotion_array]

theorem performed_anchors : (performed s p r place).anchors = s.anchors := by
  rw [performed, complete_anchors, matchAll_anchors, storeMotion_anchors]
  rfl

theorem performed_inFlight : ((performed s p r place).port p).inFlight = none := (complete_port _ p _ _).2

theorem performed_slot :
    ((performed s p r place).port p).slot =
      ⟨(s.port p).slot.tag, (r.op.perform s.array place.addrs).code, (r.op.perform s.array place.addrs).data⟩ := by
  rw [performed, (complete_port _ p _ _).1, posted_slot ((posted_refl _).matchAll _), storeMotion_slot]
  rfl

theorem performed_cursor (q : PortId) (d : CursorId) :
    ((performed s p r place).port q).cursor d =
      ((({ afterPort s p with array := (r.op.perform s.array place.addrs).array } : State).storeMotion p
        place.motion).port q).cursor d := by
  rw [performed, complete_cursor, matchAll_cursor]

variable {s p r place}

theorem performed_cursor_still (hm : place.motion = none) (q : PortId) (d : CursorId) :
    ((performed s p r place).port q).cursor d = (s.port q).cursor d := by
  rw [performed_cursor, hm]
  rfl

theorem performed_cursor_moved {c : CursorId} {offset : Nat} (hr : s.resolve p r = .ok place)
    (hm : place.motion = some (c, offset)) :
    ∃ b, (s.port p).cursor c = some b ∧ ((performed s p r place).port p).cursor c = some ⟨b.anchor, offset⟩ := by
  obtain ⟨b, hb⟩ := bound_of_motion hr hm
  refine ⟨b, hb, ?_⟩
  have hb' : (({ afterPort s p with array := (r.op.perform s.array place.addrs).array } : State).port p).cursor c =
    some b := hb
  rw [performed_cursor, hm, storeMotion_cursor, if_pos ⟨rfl, rfl⟩, hb']
  rfl

theorem performed_cursor_other {q : PortId} {d : CursorId} (h : q = p → ∀ offset, place.motion ≠ some (d, offset)) :
    ((performed s p r place).port q).cursor d = (s.port q).cursor d := by
  cases hm : place.motion with
  | none => exact performed_cursor_still hm q d
  | some x =>
    obtain ⟨c, offset⟩ := x
    rw [performed_cursor, hm, storeMotion_cursor, if_neg]
    · rfl
    · rintro ⟨rfl, rfl⟩
      exact h rfl offset hm

end Performed

/-- Bytes stored at the addresses of a place are the bytes read there. -/
theorem map_read_writeAll {s : State} {p : PortId} {r : MemoryRequest} {place : Place} (h : Granted s p r place)
    (hlisted : s.arrayListed) (hn : place.addrs.Nodup) {bytes : List Byte} (hl : bytes.length = place.addrs.length) :
    place.addrs.map (s.array.writeAll place.addrs bytes).read = bytes :=
  Memory.readAll_writeAll hlisted h.inside hn hl

/-- Settles O37: the performance decides the array and the result, the motion the cursors. -/
theorem grantResultsAndBytes : Obligations.GrantResultsAndBytes := by
  intro s p r place h hlisted hn hlen hh
  have ha := performed_array s p r place
  have hslot := performed_slot s p r place
  have htag : ((performed s p r place).port p).slot.tag = (s.port p).slot.tag := by rw [hslot]
  refine ⟨performed s p r place, _, grantPerformsInSteps s p r place h hh, rfl, fun a hout => ?outside,
    performed_anchors s p r place, performed_inFlight s p r place, htag,
    fun c offset hm => performed_cursor_moved h.resolved hm, fun q c hq => performed_cursor_other hq,
    fun hm => performed_cursor_still hm, fun size hop => ?read, fun data hop => ?write,
    fun width expected new hop => ?exchange, fun width addend hop => ?fetchAdd⟩
  case outside =>
    rw [ha]
    exact read_perform_other hout
  all_goals
    rw [hop] at ha hslot hlen
    rw [ha, hslot]
  case read => exact ⟨rfl, rfl, rfl⟩
  case write => exact ⟨rfl, rfl, map_read_writeAll h hlisted hn hlen.symm⟩
  case exchange =>
    refine ⟨perform_exchange_data width expected new, fun hv => ?_, fun hv => ?_⟩
    · rw [perform_exchange_equal hv]
      exact ⟨rfl, map_read_writeAll h hlisted hn ((leBytes_length _ _).trans hlen.symm)⟩
    · rw [perform_exchange_other hv]
      exact ⟨rfl, rfl⟩
  case fetchAdd =>
    rw [← modulus_eq]
    exact ⟨rfl, rfl, map_read_writeAll h hlisted hn ((leBytes_length _ _).trans hlen.symm)⟩

end Sys2Proof.GrantResults
end

section
/-! SUPPORT. The arbiter's and the engine's choices, each the first in circular order from its pointer (R5, R6, R124), and
the statement about them. -/

namespace Sys2Proof.CircularOrder

open Sys2Proof Sys2Proof.Machine Sys2Proof.Claims Sys2Proof.NotReady

/-! ### The first in circular order -/

/-- All numbers from `start` on, in circular order. -/
def fromOn {n : Nat} [NeZero n] (start : Fin n) : List (Fin n) := (List.finRange n).map (fun i => start + i)

theorem find?_fromOn {n : Nat} [NeZero n] (start r : Fin n) (f : Fin n → Bool) :
    (fromOn start).find? f = some r ↔
      f r = true ∧ ∀ x : Fin n, (x - start).val < (r - start).val → f x = false := by
  have hplace : ∀ i : Fin n, start + i = r ↔ i = r - start := fun i => by rw [eq_sub_iff_add_eq, add_comm]
  simp only [fromOn, List.find?_map, Option.map_eq_some_iff, hplace, exists_eq_right, ← Fin.find?_eq_find?_finRange,
    Fin.find?_eq_some_iff, Function.comp_apply, add_sub_cancel]
  refine and_congr_right (fun _ => ⟨fun h x hx => ?_, fun h i hi => ?_⟩)
  · have hplaced := h (x - start) hx
    rwa [add_sub_cancel] at hplaced
  · exact h (start + i) (by rwa [add_sub_cancel_left])

theorem fromOn_five (start : Fin 5) : [start, start + 1, start + 2, start + 3, start + 4] = fromOn start := by
  revert start
  decide

theorem fromOn_four (start : Fin 4) : [start, start + 1, start + 2, start + 3] = fromOn start := by
  revert start
  decide

/-- What comes after the one served comes nearer when the next number takes the pointer. -/
theorem comes_nearer (start r x : Fin 5) (hx : x ≠ r) (h : ¬ (x - start).val < (r - start).val) :
    (x - (r + 1)).val < (x - start).val := by
  revert start r x
  decide

/-! ### The claims (R5) -/

section Choices

variable (s : State)

theorem portClaim_iff (p : PortId) : s.portClaim p = true ↔ ∃ r, (s.port p).inFlight = some (.waiting r) := by
  unfold State.portClaim
  split
  · next r h => exact ⟨fun _ => ⟨r, h⟩, fun _ => rfl⟩
  · next h => exact ⟨Bool.noConfusion, fun ⟨r, hr⟩ => absurd hr (h r)⟩

theorem claims_port (p : PortId) : s.claims ⟨p.val, by omega⟩ = s.portClaim p := dif_pos p.isLt

theorem claims_engine : s.claims 4 = s.engineClaim := rfl

theorem hasBytes_iff (e : Channel) :
    e.hasBytes = true ↔ (e.phase = .running ∨ e.phase = .runningLatched) ∧ e.copied < e.config.length := by
  rw [Channel.hasBytes, Bool.and_eq_true, ChannelRequests.inRun_iff, decide_eq_true_iff]

theorem mem_channelIds (k : ChannelId) : k ∈ channelIds := by
  revert k
  decide

theorem engineClaim_iff : s.engineClaim = true ↔ ∃ k, (s.channel k).hasBytes = true := by
  simp only [State.engineClaim, List.any_eq_true, mem_channelIds, true_and]

/-! ### The choices (R6, R124) -/

theorem arbiterChoice_busy (h : s.ready = false ∨ s.grant.isSome = true) : s.arbiterChoice = none := by
  refine if_neg ?_
  rw [State.arrayFree, Bool.and_eq_true]
  rintro ⟨hr, hg⟩
  obtain h | h := h
  · cases h.symm.trans hr
  · rw [Option.isNone_iff_eq_none] at hg
    rw [hg] at h
    cases h

theorem arbiterChoice_iff (hr : s.ready = true) (hg : s.grant = none) (r : Requester) :
    s.arbiterChoice = some r ↔
      s.claims r = true ∧ ∀ x : Requester, (x - s.pointer).val < (r - s.pointer).val → s.claims x = false := by
  have hfree : s.arrayFree = true := by rw [State.arrayFree, hr, hg]; rfl
  rw [State.arbiterChoice, if_pos hfree, fromOn_five]
  exact find?_fromOn s.pointer r _

theorem arbiterChoice_nearer {r x : Requester} (hc : s.arbiterChoice = some r) (hx : s.claims x = true) (hn : x ≠ r) :
    (x - (r + 1)).val < (x - s.pointer).val := by
  obtain ⟨hr, hg⟩ := arbiterChoice_free hc
  refine comes_nearer s.pointer r x hn (fun hlt => ?_)
  cases hx.symm.trans (((arbiterChoice_iff s hr hg r).mp hc).2 x hlt)

theorem memoryChoice_iff (p : PortId) (r : MemoryRequest) :
    s.memoryChoice = some (p, r) ↔
      s.arbiterChoice = some ⟨p.val, by omega⟩ ∧ (s.port p).inFlight = some (.waiting r) := by
  constructor
  · intro hc
    refine ⟨?_, PortChanges.memoryChoice_inFlight hc⟩
    unfold State.memoryChoice at hc
    split at hc
    · cases hc
    · next x hx =>
      split at hc
      · split at hc
        · cases hc
          exact hx
        · cases hc
      · cases hc
  · rintro ⟨ha, hi⟩
    have hp : (⟨p.val, p.isLt⟩ : PortId) = p := rfl
    simp only [State.memoryChoice, ha, p.isLt, dite_true, hp, hi]

theorem engineChoice_iff (k : ChannelId) :
    s.engineChoice = some k ↔
      (s.channel k).hasBytes = true ∧
        ∀ j : ChannelId, (j - s.enginePointer).val < (k - s.enginePointer).val → (s.channel j).hasBytes = false := by
  rw [State.engineChoice, fromOn_four]
  exact find?_fromOn s.enginePointer k _

theorem engine_iff (r : Requester) : r = 4 ↔ ¬ r.val < 4 := by
  revert r
  decide

theorem segmentChoice_iff (k : ChannelId) :
    s.segmentChoice = some k ↔ s.arbiterChoice = some 4 ∧ s.engineChoice = some k := by
  unfold State.segmentChoice
  split
  · next h => exact ⟨nofun, fun ⟨ha, _⟩ => by cases h.symm.trans ha⟩
  · next r h =>
    rw [h, Option.some.injEq, engine_iff]
    split
    · next hlt => exact ⟨nofun, fun ⟨hn, _⟩ => absurd hlt hn⟩
    · next hlt => exact ⟨fun he => ⟨hlt, he⟩, And.right⟩

end Choices

/-- Settles O31: each choice is the first in circular order that has a claim. -/
theorem grantsInCircularOrder : Obligations.GrantsInCircularOrder := by
  refine ⟨⟨fun s p => ?port, fun s => ?engine, arbiterChoice_busy, fun s r hr hg => arbiterChoice_iff s hr hg r,
    fun s r x => arbiterChoice_nearer s, memoryChoice_iff⟩,
    fun s k => ⟨engineChoice_iff s k, segmentChoice_iff s k, hasBytes_iff _⟩⟩
  case port => rw [claims_port, portClaim_iff]
  case engine => simp only [claims_engine, engineClaim_iff, hasBytes_iff]

end Sys2Proof.CircularOrder
end

section
/-! SUPPORT. A memory request at its taking (R9, R10, R160): what its target and operand bytes name, the checks, the
request that waits or is refused, and the statement about it. -/

namespace Sys2Proof.MemoryTaking

open Sys2Proof Sys2Proof.Machine Sys2Proof.Claims Sys2Proof.AnchorsAndCursors Sys2Proof.RequestFrames

/-! ### Targets (Table 9-3) -/

theorem target?_absolute (address : Half) (x : Byte) :
    target? ⟨0, halfLo address, halfHi address, x⟩ = some (.absolute address.toNat) := by
  simp [target?, halfOf_halfLo_halfHi]

theorem target?_anchored (a : AnchorId) (offset : Half) :
    target? ⟨1, BitVec.ofNat 8 a.val, halfLo offset, halfHi offset⟩ = some (.anchored a offset.toNat) := by
  simp [target?, halfOf_halfLo_halfHi, index?_ofNat]

theorem target?_cursor (c : CursorId) {b : Byte} {m : Motion} (hm : motion? b = some m) (x : Byte) :
    target? ⟨2, BitVec.ofNat 8 c.val, b, x⟩ = some (.cursor c m) := by
  simp [target?, index?_ofNat, hm]

theorem motion?_none {b : Byte} (h : 3 ≤ b.toNat) : motion? b = none := by
  unfold motion?
  rw [if_neg (by bv_omega), if_neg (by bv_omega), if_neg (by bv_omega)]

theorem target?_none {t : TargetBytes}
    (h : 3 ≤ t.mode.toNat ∨ (t.mode = 1 ∧ 32 ≤ t.b0.toNat) ∨ (t.mode = 2 ∧ (4 ≤ t.b0.toNat ∨ 3 ≤ t.b1.toNat))) :
    target? t = none := by
  unfold target?
  obtain hm | ⟨hm, ha⟩ | ⟨hm, hc | hb⟩ := h
  · rw [if_neg (by bv_omega), if_neg (by bv_omega), if_neg (by bv_omega)]
  · rw [hm, if_neg (by decide), if_pos rfl, index?_eq_none ha]
    rfl
  · rw [hm, if_neg (by decide), if_neg (by decide), if_pos rfl, index?_eq_none hc]
    rfl
  · rw [hm, if_neg (by decide), if_neg (by decide), if_pos rfl, motion?_none hb]
    cases index? 4 t.b0 <;> rfl

/-! ### Operations (Table 1-1) -/

section Operations

variable {size width : Byte}

theorem size?_some (h1 : 1 ≤ size.toNat) (h16 : size.toNat ≤ 16) : size? size = some size.toNat := if_pos ⟨h1, h16⟩

theorem size?_none (h : size.toNat = 0 ∨ 16 < size.toNat) : size? size = none := by
  refine if_neg (fun hs => ?_)
  have h16 : size.toNat ≤ 16 := hs.2
  omega

theorem readOp?_some (h1 : 1 ≤ size.toNat) (h16 : size.toNat ≤ 16) : readOp? size = some (.read size.toNat) := by
  rw [readOp?, size?_some h1 h16]
  rfl

theorem writeOp?_some (h1 : 1 ≤ size.toNat) (h16 : size.toNat ≤ 16) (data : List Byte) :
    writeOp? size data = some (.write data) := by
  rw [writeOp?, size?_some h1 h16]
  rfl

theorem width?_bytes (w : Width) : width? (BitVec.ofNat 8 w.bytes) = some w := by
  cases w <;> rfl

theorem width?_none (h : width ≠ 1 ∧ width ≠ 2 ∧ width ≠ 4) : width? width = none := by
  obtain ⟨h1, h2, h4⟩ := h
  rw [width?, if_neg h1, if_neg h2, if_neg h4]

theorem exchangeOp?_some (w : Width) (expected new : Quad) :
    exchangeOp? (BitVec.ofNat 8 w.bytes) expected new =
      some (.exchange w (expected.toNat % 256 ^ w.bytes) (new.toNat % 256 ^ w.bytes)) := by
  rw [exchangeOp?, width?_bytes]
  rfl

theorem fetchAddOp?_some (w : Width) (addend : Quad) :
    fetchAddOp? (BitVec.ofNat 8 w.bytes) addend = some (.fetchAdd w (addend.toNat % 256 ^ w.bytes)) := by
  rw [fetchAddOp?, width?_bytes]
  rfl

/-- The data bytes that a WRITE frame carries for a size of 1 to 16 (R157). -/
theorem writeDataLength_of_size (h1 : 1 ≤ size.toNat) (h16 : size.toNat ≤ 16) : writeDataLength size = size.toNat :=
  if_pos ⟨h1, h16⟩

end Operations

/-! ### The checks at taking (R9, R10) -/

section Checks

variable {bytes : TargetBytes} {t : Target} {op : MemoryOp} {o : Option MemoryOp}

theorem fitsAtTaking_of {n : Nat} (h : ∀ address, t = .absolute address → address + n ≤ 32768) :
    t.fitsAtTaking n = true := by
  cases t with
  | absolute address => exact decide_eq_true (h address rfl)
  | anchored a offset => rfl
  | cursor c m => rfl

theorem checkAtTaking_ok (ht : target? bytes = some t) (ho : o = some op)
    (hf : ∀ address, t = .absolute address → address + op.size ≤ 32768) : checkAtTaking bytes o = .ok ⟨t, op⟩ := by
  subst ho
  unfold checkAtTaking
  rw [ht]
  exact if_pos (fitsAtTaking_of hf)

theorem checkAtTaking_badParameter (h : target? bytes = none ∨ o = none) :
    checkAtTaking bytes o = .error .badParameter := by
  unfold checkAtTaking
  obtain h | h := h
  · rw [h]
  · rw [h]
    cases target? bytes <;> rfl

theorem checkAtTaking_outOfRange {address : Nat} (ht : target? bytes = some (.absolute address)) (ho : o = some op)
    (hf : 32768 < address + op.size) : checkAtTaking bytes o = .error .outOfRange := by
  subst ho
  unfold checkAtTaking
  rw [ht]
  refine if_neg (fun h => ?_)
  have hle : address + op.size ≤ 32768 := of_decide_eq_true h
  omega

end Checks

/-! ### The frames of memory requests (R157, R160) -/

section Frames

variable {s : State} {f : Frame} {bytes : TargetBytes}

/-- What a memory request's frame leaves, by its checks at taking. -/
def taken (s : State) (f : Frame) (r : Except ResultCode MemoryRequest) : State :=
  (s.frameOver f.port f.bits).takeMemory f.port f.tag r

theorem taken_ok (s : State) (f : Frame) (r : MemoryRequest) : taken s f (.ok r) = inFlight s f (.waiting r) := by
  have ht : taken s f (.ok r) = ((s.frameOver f.port f.bits).showPending f.port f.tag).setInFlight f.port (.waiting r) :=
    rfl
  rw [ht, State.showPending, State.setInFlight, modPort_modPort]
  rfl

theorem taken_error (s : State) (f : Frame) (code : ResultCode) : taken s f (.error code) = s.answered f code [] :=
  complete_taken s f code []

variable (h : s.takes f.port)

include h

theorem exec_read {size : Byte} (hb : f.bits = 8 * 7) :
    exec (.read f bytes size) s = .next (taken s f (checkAtTaking bytes (readOp? size))) :=
  memoryFrame_takes h (by omega) (frameFits_of_length hb rfl) bytes _

theorem exec_write {size : Byte} {data : List Byte} (hd : data.length = writeDataLength size)
    (hb : f.bits = 8 * (7 + writeDataLength size)) :
    exec (.write f bytes size data) s = .next (taken s f (checkAtTaking bytes (writeOp? size data))) :=
  memoryFrame_takes h (by omega)
    (Bool.and_eq_true_iff.mpr ⟨frameFits_of_length hb rfl, beq_iff_eq.mpr hd⟩) bytes _

theorem exec_exchange {width : Byte} {expected new : Quad} (hb : f.bits = 8 * 15) :
    exec (.exchange f bytes width expected new) s = .next (taken s f (checkAtTaking bytes (exchangeOp? width expected new))) :=
  memoryFrame_takes h (by omega) (frameFits_of_length hb rfl) bytes _

theorem exec_fetchAdd {width : Byte} {addend : Quad} (hb : f.bits = 8 * 11) :
    exec (.fetchAdd f bytes width addend) s = .next (taken s f (checkAtTaking bytes (fetchAddOp? width addend))) :=
  memoryFrame_takes h (by omega) (frameFits_of_length hb rfl) bytes _

end Frames

/-! ### The statement -/

/-- Settles O30: the checks decide whether the request waits or is refused. -/
theorem memoryRequestsTaken : Obligations.MemoryRequestsTaken := by
  refine ⟨⟨target?_absolute, target?_anchored, fun c x => ⟨target?_cursor c rfl x, target?_cursor c rfl x,
    target?_cursor c rfl x⟩, fun t => target?_none⟩, fun f bytes t s h ht =>
    ⟨fun size h1 h16 hf => ⟨fun hb => ?read, fun data hd hb => ?write⟩,
      fun width hf => ⟨fun expected new hb => ?exchange, fun addend hb => ?fetchAdd⟩⟩,
    fun f bytes s h => ⟨fun size hn => ?sized,
    fun width hn => ?wide, fun address ht => ⟨fun size h1 h16 hf => ?sizedOut, fun width hf => ?wideOut⟩⟩⟩
  case read => rw [exec_read h hb, checkAtTaking_ok ht (readOp?_some h1 h16) hf, taken_ok]
  case write =>
    rw [← writeDataLength_of_size h1 h16] at hb
    rw [exec_write h (hd.trans (writeDataLength_of_size h1 h16).symm) hb,
      checkAtTaking_ok ht (writeOp?_some h1 h16 data) (fun a ha => (congrArg (a + ·) hd).trans_le (hf a ha)), taken_ok]
  case exchange => rw [exec_exchange h hb, checkAtTaking_ok ht (exchangeOp?_some width expected new) hf, taken_ok]
  case fetchAdd => rw [exec_fetchAdd h hb, checkAtTaking_ok ht (fetchAddOp?_some width addend) hf, taken_ok]
  case sized =>
    have hsize : target? bytes = none ∨ size? size = none := hn.imp_right size?_none
    refine ⟨fun hb => ?_, fun data hd hb => ?_⟩
    · rw [exec_read h hb, checkAtTaking_badParameter (hsize.imp_right (fun hs => by rw [readOp?, hs]; rfl)), taken_error]
    · rw [exec_write h hd hb, checkAtTaking_badParameter (hsize.imp_right (fun hs => by rw [writeOp?, hs]; rfl)),
        taken_error]
  case wide =>
    have hwidth : target? bytes = none ∨ width? width = none := hn.imp_right width?_none
    refine ⟨fun expected new hb => ?_, fun addend hb => ?_⟩
    · rw [exec_exchange h hb, checkAtTaking_badParameter (hwidth.imp_right (fun hw => by rw [exchangeOp?, hw]; rfl)),
        taken_error]
    · rw [exec_fetchAdd h hb, checkAtTaking_badParameter (hwidth.imp_right (fun hw => by rw [fetchAddOp?, hw]; rfl)),
        taken_error]
  case sizedOut =>
    refine ⟨fun hb => ?_, fun data hd hb => ?_⟩
    · rw [exec_read h hb, checkAtTaking_outOfRange ht (readOp?_some h1 h16) hf, taken_error]
    · rw [← writeDataLength_of_size h1 h16] at hb
      rw [exec_write h (hd.trans (writeDataLength_of_size h1 h16).symm) hb,
        checkAtTaking_outOfRange ht (writeOp?_some h1 h16 data) (hf.trans_eq (congrArg (address + ·) hd.symm)), taken_error]
  case wideOut =>
    refine ⟨fun expected new hb => ?_, fun addend hb => ?_⟩
    · rw [exec_exchange h hb, checkAtTaking_outOfRange ht (exchangeOp?_some width expected new) hf, taken_error]
    · rw [exec_fetchAdd h hb, checkAtTaking_outOfRange ht (fetchAddOp?_some width addend) hf, taken_error]

end Sys2Proof.MemoryTaking
end

section
/-! SUPPORT. A deferred request applied after what came before it (R7, R55, R160), while the aborts among that wait on; and
the statement about it. -/

namespace Sys2Proof.DeferredApply

open Sys2Proof Sys2Proof.Machine Sys2Proof.Claims Sys2Proof.DueWork Sys2Proof.Posting Sys2Proof.InsideArray
  Sys2Proof.WaitingOrder

/-! ### What waits is neither seen nor changed by what is applied -/

/-- The state with another order of what waits. -/
def withOrder (os : List Deferred) (s : State) : State := { s with deferredOrder := os }

section Order

variable (s : State) (os os' : List Deferred)

theorem withOrder_withOrder : withOrder os (withOrder os' s) = withOrder os s := rfl

theorem withOrder_self : withOrder s.deferredOrder s = s := rfl

theorem blind_withOrder {g : State → State} (hg : Blind g) : g (withOrder os s) = withOrder os (g s) :=
  hg.withDeferredOrder s os

variable {s}

theorem foldWaiting_withOrder (hl : s.lapsesDue = []) (ds : List Deferred) :
    ds.foldl State.applyWaiting (withOrder os s) = withOrder os (ds.foldl State.applyWaiting s) := by
  have h : ds.foldl State.applyWaiting (withOrder os s) =
      within { around s with deferredOrder := os } (ds.foldl State.applyWaiting s) :=
    foldWaiting_within (c := { around s with deferredOrder := os }) hl ds s
  rw [h, ← foldWaiting_around hl ds]
  rfl

theorem applyWaiting_withOrder (hl : s.lapsesDue = []) (d : Deferred) :
    (withOrder os s).applyWaiting d = withOrder os (s.applyWaiting d) := foldWaiting_withOrder os hl [d]

theorem applyWaiting_lapsesDue (hl : s.lapsesDue = []) (d : Deferred) : (s.applyWaiting d).lapsesDue = [] :=
  (congrArg Surroundings.lapsesDue (foldWaiting_around hl [d])).trans hl

end Order

/-! ### The access completion -/

section Completion

variable (s : State) {p : PortId} (post : RunEndPost)

/-- A grant's completion, by the grant that holds the array. -/
def completion : Option Grant → State → State
  | none => id
  | some (.access p code data) => fun s => ({ s with grant := none } : State).complete p code data
  | some (.segment k moved) => fun s => ({ s with grant := none } : State).segmentCompletes k moved post

theorem completeAccess_eq : s.completeAccess post = completion post s.grant s := by
  unfold State.completeAccess completion
  split <;> simp only [*, id]

theorem completion_withOrder (g : Option Grant) (os : List Deferred) :
    completion post g (withOrder os s) = withOrder os (completion post g s) := by
  obtain _ | ⟨p, code, data⟩ | ⟨k, moved⟩ := g
  · rfl
  · rfl
  · exact blind_withOrder { s with grant := none } os (blind_segmentCompletes k moved post)

theorem completeAccess_withOrder (os : List Deferred) :
    (withOrder os s).completeAccess post = withOrder os (s.completeAccess post) := by
  rw [completeAccess_eq, completeAccess_eq]
  exact completion_withOrder s post s.grant os

theorem completeAccess_lapsesDue : (s.completeAccess post).lapsesDue = s.lapsesDue := by
  rw [completeAccess_eq]
  obtain _ | ⟨p, code, data⟩ | ⟨k, moved⟩ := s.grant
  · rfl
  · rfl
  · exact (blind_segmentCompletes k moved post).lapsesDue { s with grant := none }

variable {s}

theorem completeAccess_free (hg : s.grant = none) : s.completeAccess post = s := by
  rw [completeAccess_eq, hg]
  rfl

/-- A port's request that a grant's completion does not end. -/
theorem completeAccess_inFlight (h : ∀ code data, s.grant ≠ some (.access p code data)) :
    ((s.completeAccess post).port p).inFlight = (s.port p).inFlight := by
  rw [completeAccess_eq]
  cases hg : s.grant with
  | none => rfl
  | some g =>
    cases g with
    | access o code data =>
      have ho : ¬ o = p := fun ho => h code data (ho ▸ hg)
      exact (inFlight_complete _ o code data p).trans (if_neg ho)
    | segment k moved =>
      exact ((posted_refl ({ s with grant := none } : State)).segmentCompletes k moved post).inFlight p

end Completion

section Deferred

variable {s : State} {p : PortId} {d : Deferred} {rest : List Deferred}

/-! ### Which aborts wait -/

theorem abortWaits_deferred {r : Request} (h : (s.port p).inFlight = some (.deferred r)) :
    s.abortWaits (.request p) = false := by
  simp only [State.abortWaits, h]

theorem abortWaits_abort {k : ChannelId} (h : (s.port p).inFlight = some (.afterSegment k)) :
    s.abortWaits (.request p) = true := by
  simp only [State.abortWaits, h]

/-- What is applied, no waiting abort, leaves the aborts waiting. -/
theorem abortWaits_applyWaiting (hd : s.abortWaits d = false) (d' : Deferred) :
    (s.applyWaiting d).abortWaits d' = s.abortWaits d' := by
  cases d' with
  | tick => rfl
  | request q =>
    have hi := inFlight_applyWaiting s d q
    split at hi
    · next h =>
      rw [h.1] at hd
      rw [hd]
      simp only [State.abortWaits, hi]
    · simp only [State.abortWaits, hi]

/-! ### Applying up to a port's request -/

/-- What comes before port `p`'s request in a list of what waits. -/
def before (p : PortId) (ds : List Deferred) : List Deferred := ds.takeWhile (fun d => d != .request p)

/-- What comes behind port `p`'s request. -/
def behind (p : PortId) (ds : List Deferred) : List Deferred := (ds.dropWhile (fun d => d != .request p)).drop 1

theorem before_self (p : PortId) (rest : List Deferred) : before p (.request p :: rest) = [] := by
  simp [before]

theorem behind_self (p : PortId) (rest : List Deferred) : behind p (.request p :: rest) = rest := by
  simp [behind]

theorem before_other (h : d ≠ .request p) (rest : List Deferred) : before p (d :: rest) = d :: before p rest := by
  simp [before, h]

theorem behind_other (h : d ≠ .request p) (rest : List Deferred) : behind p (d :: rest) = behind p rest := by
  simp [behind, h]

/-- Up to port `p`'s request, what a test of the waiting aborts leaves to be applied. -/
def toApply (ab : Deferred → Bool) (p : PortId) (ds : List Deferred) : List Deferred :=
  (before p ds).filter (fun d => !ab d) ++ [.request p]

/-- What waits on. -/
def toWait (ab : Deferred → Bool) (p : PortId) (ds : List Deferred) : List Deferred :=
  (before p ds).filter ab ++ behind p ds

/-- What is applied and what waits on, apart from each other. -/
theorem applyDeferredUpTo_split (hl : s.lapsesDue = []) (p : PortId) :
    s.applyDeferredUpTo p =
      withOrder (toWait s.abortWaits p s.deferredOrder)
        ((toApply s.abortWaits p s.deferredOrder).foldl State.applyWaiting s) := by
  rw [← foldWaiting_withOrder _ hl, applyDeferredUpTo_eq]
  rfl

theorem toApply_next {ab : Deferred → Bool} (hd : d ≠ .request p) (ha : ab d = false) :
    toApply ab p (d :: rest) = d :: toApply ab p rest ∧ toWait ab p (d :: rest) = toWait ab p rest := by
  constructor <;> simp [toApply, toWait, before_other hd, behind_other hd, ha]

theorem toApply_abort {ab : Deferred → Bool} (hd : d ≠ .request p) (ha : ab d = true) :
    toApply ab p (d :: rest) = toApply ab p rest ∧ toWait ab p (d :: rest) = d :: toWait ab p rest := by
  constructor <;> simp [toApply, toWait, before_other hd, behind_other hd, ha]

theorem applyDeferredUpTo_first (hl : s.lapsesDue = []) (ho : s.deferredOrder = .request p :: rest) :
    s.applyDeferredUpTo p = (withOrder rest s).applyDeferred p := by
  have hw : (withOrder rest s).applyDeferred p = withOrder rest (s.applyDeferred p) :=
    blind_withOrder s rest (blind_applyDeferred p)
  have ha : toApply s.abortWaits p (.request p :: rest) = [.request p] := by simp [toApply, before_self]
  have hb : toWait s.abortWaits p (.request p :: rest) = rest := by simp [toWait, before_self, behind_self]
  rw [applyDeferredUpTo_split hl, ho, ha, hb, hw]
  rfl

/-- What comes first, and is no waiting abort, is applied first. -/
theorem applyDeferredUpTo_next (hl : s.lapsesDue = []) (ho : s.deferredOrder = d :: rest) (hd : d ≠ .request p)
    (ha : s.abortWaits d = false) :
    s.applyDeferredUpTo p = ((withOrder rest s).applyWaiting d).applyDeferredUpTo p := by
  have hl' : (s.applyWaiting d).lapsesDue = [] := applyWaiting_lapsesDue hl d
  have hab : (withOrder rest (s.applyWaiting d)).abortWaits = s.abortWaits := funext (abortWaits_applyWaiting ha)
  have hor : (withOrder rest (s.applyWaiting d)).deferredOrder = rest := rfl
  obtain ⟨happly, hwait⟩ := toApply_next (rest := rest) hd ha
  rw [applyWaiting_withOrder rest hl, applyDeferredUpTo_split (s := withOrder rest (s.applyWaiting d)) hl', hab, hor,
    foldWaiting_withOrder rest hl', withOrder_withOrder, applyDeferredUpTo_split hl, ho, happly, hwait, List.foldl_cons]

/-- A waiting abort that comes first waits on in its place. -/
theorem applyDeferredUpTo_abort (hl : s.lapsesDue = []) (ho : s.deferredOrder = d :: rest) (hd : d ≠ .request p)
    (ha : s.abortWaits d = true) :
    s.applyDeferredUpTo p =
      withOrder (d :: ((withOrder rest s).applyDeferredUpTo p).deferredOrder) ((withOrder rest s).applyDeferredUpTo p) := by
  have hab : (withOrder rest s).abortWaits = s.abortWaits := rfl
  have hor : (withOrder rest s).deferredOrder = rest := rfl
  obtain ⟨happly, hwait⟩ := toApply_abort (rest := rest) hd ha
  rw [applyDeferredUpTo_split (s := withOrder rest s) hl, hab, hor, foldWaiting_withOrder rest hl,
    applyDeferredUpTo_split hl, ho, happly, hwait]
  rfl

/-- A waiting abort of another port is not applied. -/
theorem applyDeferredUpTo_inFlight {q : PortId} {k : ChannelId} (hq : (s.port q).inFlight = some (.afterSegment k))
    (hn : q ≠ p) : ((s.applyDeferredUpTo p).port q).inFlight = some (.afterSegment k) := by
  rw [applyDeferredUpTo_eq, inFlight_foldWaiting, if_neg]
  · exact hq
  · rintro ⟨hm, -⟩
    obtain hm | hm := List.mem_append.mp hm
    · have hb := (List.mem_filter.mp hm).2
      rw [abortWaits_abort hq] at hb
      cases hb
    · exact hn (Deferred.request.inj (List.mem_singleton.mp hm))

/-! ### The command -/

theorem exec_deferred_due {r : Request} (hp : (s.port p).inFlight = some (.deferred r)) :
    exec (.deferredRequestApply p) s = .next ((s.finishLapses.completeAccess .atOnce).applyDeferredUpTo p) := by
  show execDeferredRequestApply p s = _
  simp only [execDeferredRequestApply, hp]

theorem exec_deferred {r : Request} (hl : s.lapsesDue = []) (hp : (s.port p).inFlight = some (.deferred r)) :
    exec (.deferredRequestApply p) s = .next ((s.completeAccess .atOnce).applyDeferredUpTo p) := by
  rw [exec_deferred_due hp, finishLapses_none hl]

/-- The lapses that are due come first. -/
theorem exec_deferred_finishLapses {r : Request} (hp : (s.port p).inFlight = some (.deferred r)) :
    exec (.deferredRequestApply p) s.finishLapses = exec (.deferredRequestApply p) s := by
  have hp' : (s.finishLapses.port p).inFlight = some (.deferred r) := ((undisturbed_finishLapses s).inFlight p).trans hp
  rw [exec_deferred_due hp, exec_deferred_due hp', finishLapses_none (s := s.finishLapses) rfl]

theorem exec_not_deferred (hp : ∀ r : Request, (s.port p).inFlight ≠ some (.deferred r)) :
    exec (.deferredRequestApply p) s = .next s.settle := by
  show execDeferredRequestApply p s = _
  unfold execDeferredRequestApply
  split
  · next r h => exact absurd h (hp r)
  · rfl

/-- A deferred request that comes first, applied at the completion. -/
theorem exec_deferred_first {r : Request} (hl : s.lapsesDue = []) (hp : (s.port p).inFlight = some (.deferred r))
    (ho : s.deferredOrder = .request p :: rest) (hg : ∀ code data, s.grant ≠ some (.access p code data)) :
    exec (.deferredRequestApply p) s = .next (applied p r (completion .atOnce s.grant (withOrder rest s))) := by
  have hi : ((withOrder rest (s.completeAccess .atOnce)).port p).inFlight = some (.deferred r) :=
    (completeAccess_inFlight .atOnce hg).trans hp
  rw [exec_deferred hl hp, applyDeferredUpTo_first ((completeAccess_lapsesDue s _).trans hl)
    ((completeAccess_order s _).trans ho), applyDeferred_deferred hi, completion_withOrder, completeAccess_eq]
  rfl

/-- Where the array is free, what comes first, and is no waiting abort, is applied before the rest. -/
theorem exec_deferred_next {r : Request} (hl : s.lapsesDue = []) (hp : (s.port p).inFlight = some (.deferred r))
    (ho : s.deferredOrder = d :: rest) (hg : s.grant = none) (hd : d ≠ .request p) (ha : s.abortWaits d = false) :
    exec (.deferredRequestApply p) s = exec (.deferredRequestApply p) ((withOrder rest s).applyWaiting d) := by
  have hl' : ((withOrder rest s).applyWaiting d).lapsesDue = [] := applyWaiting_lapsesDue (s := withOrder rest s) hl d
  have hp' : (((withOrder rest s).applyWaiting d).port p).inFlight = some (.deferred r) := by
    rw [inFlight_applyWaiting, if_neg (fun h => hd h.1)]
    exact hp
  have hg' : ((withOrder rest s).applyWaiting d).grant = none := (applyWaiting_grant (withOrder rest s) d).trans hg
  rw [exec_deferred hl hp, exec_deferred hl' hp', completeAccess_free .atOnce hg, completeAccess_free .atOnce hg',
    applyDeferredUpTo_next hl ho hd ha]

end Deferred

/-- Settles O47: what comes first in the order decides. -/
theorem deferredRequestIsApplied : Obligations.DeferredRequestIsApplied := by
  refine fun p s hl => ⟨fun r rest hp ho => ⟨fun hg => ?free, fun o code data hg hn => ?access,
      fun k moved hg => ?segment⟩,
    fun q rest r r' hp hq hn ho hg => ?request, fun rest r hp ho hg => ?tick,
    fun q k rest r hp hq ho hg => ?abort, fun hs hp => ?nothing⟩
  case free =>
    have hx := exec_deferred_first hl hp ho (by rw [hg]; nofun)
    rw [hg] at hx
    exact hx
  case access =>
    have hx := exec_deferred_first hl hp ho (by rw [hg]; rintro code' data' hc; cases hc; exact hn rfl)
    rw [hg] at hx
    exact hx
  case segment =>
    have hx := exec_deferred_first hl hp ho (by rw [hg]; nofun)
    rw [hg] at hx
    exact hx
  case request =>
    have hd : Deferred.request q ≠ .request p := fun h => hn (Deferred.request.inj h)
    have hw : (withOrder rest s).applyWaiting (.request q) = applied q r' (withOrder rest s) :=
      applyDeferred_deferred (s := withOrder rest s) hq
    have hq' := exec_deferred_first hl hq ho (by rw [hg]; nofun)
    rw [hg] at hq'
    refine ⟨_, hq', ?_⟩
    rw [exec_deferred_next hl hp ho hg hd (abortWaits_deferred hq), hw]
    rfl
  case tick =>
    have hx := exec_deferred_finishLapses (s := (withOrder rest s).countTick) hp
    rw [exec_deferred_next hl hp ho hg Deferred.noConfusion rfl, ticked_eq_countTick]
    exact hx
  case abort =>
    have hn : q ≠ p := by
      rintro rfl
      cases hp.symm.trans hq
    have hc : ((s.completeAccess .atOnce).port q).inFlight = some (.afterSegment k) :=
      (completeAccess_inFlight .atOnce (hg q)).trans hq
    have hx := exec_deferred (s := withOrder rest s) hl hp
    rw [completeAccess_withOrder] at hx
    refine ⟨_, hx, applyDeferredUpTo_inFlight (s := withOrder rest (s.completeAccess .atOnce)) hc hn, ?_⟩
    rw [exec_deferred hl hp, applyDeferredUpTo_abort ((completeAccess_lapsesDue s _).trans hl)
      ((completeAccess_order s _).trans ho) (fun h => hn (Deferred.request.inj h)) (abortWaits_abort hc)]
    rfl
  case nothing => rw [exec_not_deferred hp, settle_settled hs]

end Sys2Proof.DeferredApply
end
